-- ==== Sys2Proof/Word.lean ====
section
/-!
DEFINITION. The value types of the machine (`00_scope.md` R7: every value is unsigned, bit 0 is the least
significant bit).
-/

namespace Sys2Proof

/-- A bits8: a general register, a timer, a byte of memory, the immediate `nn` (R11, R16, R18, R61). -/
abbrev Byte := BitVec 8

/-- A bits16: I, PC, a stack entry, an instruction word, the key vector (R13, R14, R15, R60, R160). -/
abbrev Word := BitVec 16

/-- A 4-bit field of an instruction word (R61). -/
abbrev Nibble := BitVec 4

/-- The 12-bit address field `nnn` (R61). -/
abbrev Nnn := BitVec 12

/-- The number of a general register, 0 to 15 (R11); 15 is VF (R12). -/
abbrev Reg := Fin 16

/-- The row count `n` of DXYN, 0 to 15 (R63). -/
abbrev RowCount := Fin 16

/-- The number of a key, 0x0 to 0xF (R160). -/
abbrev Key := Fin 16

/-- One row of the frame buffer, 64 one-bit pixels: bit px is column px (R19, R150). -/
abbrev PixelRow := BitVec 64

/-- VF, register 15, the flag output (R12). -/
abbrev Reg.vf : Reg := 15

end Sys2Proof
end

