-- ==== Sys2Proof/Machine/Flags.lean ====
section
/-!
DEFINITION. The flag computations (`10_state.md` R12, `44_alu.md` R140): each is a bit, written to VF as 0x00 or 0x01.
-/

namespace Sys2Proof.Machine

/-- A flag as the byte VF receives, 0x00 or 0x01 (R12). -/
def flagByte (flag : Bool) : Byte := if flag then 1 else 0

/-- Carry of an addition: the true sum exceeds 255 (R135, R140). -/
def carryOut (a b : Byte) : Bool := 255 < a.toNat + b.toNat

/-- The "no borrow" flag of a − b: a ≥ b (R136, R138, R140). -/
def noBorrow (a b : Byte) : Bool := b.toNat ≤ a.toNat

/-- The bit that a right shift by one moves out: bit 0 of the operand (R137). -/
def shiftedOutRight (s : Byte) : Bool := s.getLsbD 0

/-- The bit that a left shift by one moves out: bit 7 of the operand (R139). -/
def shiftedOutLeft (s : Byte) : Bool := s.getLsbD 7

end Sys2Proof.Machine
end

