-- ==== Sys2Proof/Syntax.lean ====
section
/-!
DEFINITION. The 34 instructions of `30_encoding.md` R65, one constructor per row of `spec/opcode_table.json`, with the
operand fields of R61 that their format uses (R62).
-/

namespace Sys2Proof

/-- An instruction with its operands. Each operand's type has exactly the values that its field can encode, all of
them legal (R63). -/
inductive Instr where
  /-- 00E0, CLS (R152). -/
  | cls
  /-- 00EE, RET (R100). -/
  | ret
  /-- 1NNN, JP nnn (R101). -/
  | jp (nnn : Nnn)
  /-- 2NNN, CALL nnn (R102). -/
  | call (nnn : Nnn)
  /-- 3XNN, SE Vx, nn (R110). -/
  | seImm (x : Reg) (nn : Byte)
  /-- 4XNN, SNE Vx, nn (R111). -/
  | sneImm (x : Reg) (nn : Byte)
  /-- 5XY0, SE Vx, Vy (R112). -/
  | seReg (x y : Reg)
  /-- 6XNN, LD Vx, nn (R120). -/
  | ldImm (x : Reg) (nn : Byte)
  /-- 7XNN, ADD Vx, nn (R121). -/
  | addImm (x : Reg) (nn : Byte)
  /-- 8XY0, LD Vx, Vy (R131). -/
  | ldReg (x y : Reg)
  /-- 8XY1, OR Vx, Vy (R132). -/
  | orReg (x y : Reg)
  /-- 8XY2, AND Vx, Vy (R133). -/
  | andReg (x y : Reg)
  /-- 8XY3, XOR Vx, Vy (R134). -/
  | xorReg (x y : Reg)
  /-- 8XY4, ADD Vx, Vy (R135). -/
  | addReg (x y : Reg)
  /-- 8XY5, SUB Vx, Vy (R136). -/
  | subReg (x y : Reg)
  /-- 8XY6, SHR Vx, Vy (R137). -/
  | shr (x y : Reg)
  /-- 8XY7, SUBN Vx, Vy (R138). -/
  | subnReg (x y : Reg)
  /-- 8XYE, SHL Vx, Vy (R139). -/
  | shl (x y : Reg)
  /-- 9XY0, SNE Vx, Vy (R113). -/
  | sneReg (x y : Reg)
  /-- ANNN, LD I, nnn (R122). -/
  | ldI (nnn : Nnn)
  /-- BNNN, JP V0, nnn (R103). -/
  | jpV0 (nnn : Nnn)
  /-- CXNN, RND Vx, nn (R124). -/
  | rnd (x : Reg) (nn : Byte)
  /-- DXYN, DRW Vx, Vy, n (R153). -/
  | drw (x y : Reg) (n : RowCount)
  /-- EX9E, SKP Vx (R161). -/
  | skp (x : Reg)
  /-- EXA1, SKNP Vx (R162). -/
  | sknp (x : Reg)
  /-- FX07, LD Vx, DT (R164). -/
  | ldVxDt (x : Reg)
  /-- FX0A, LD Vx, K (R163). -/
  | ldVxK (x : Reg)
  /-- FX15, LD DT, Vx (R165). -/
  | ldDtVx (x : Reg)
  /-- FX18, LD ST, Vx (R166). -/
  | ldStVx (x : Reg)
  /-- FX1E, ADD I, Vx (R123). -/
  | addI (x : Reg)
  /-- FX29, LD F, Vx (R170). -/
  | ldF (x : Reg)
  /-- FX33, LD B, Vx (R172). -/
  | ldB (x : Reg)
  /-- FX55, LD [I], Vx (R173). -/
  | storeRegs (x : Reg)
  /-- FX65, LD Vx, [I] (R174). -/
  | loadRegs (x : Reg)
deriving DecidableEq, Repr

end Sys2Proof
end

