-- ==== Sys2Proof/WellFormed.lean ====
section
/-!
DEFINITION. Which operand values a field of an instruction word can hold (`30_encoding.md` R61, R63), which fields an
instruction uses (R62), and the check of the two together.
-/

namespace Sys2Proof

/-- The operand fields of R61. -/
inductive Field where
  | x
  | y
  | n
  | nn
  | nnn
deriving DecidableEq, Repr

/-- The width of a field in bits (R61). -/
def Field.width : Field → Nat
  | .x => 4
  | .y => 4
  | .n => 4
  | .nn => 8
  | .nnn => 12

/-- A field holds exactly the unsigned values below 2 to its width (R63). -/
def Field.fits (f : Field) (value : Nat) : Bool := value < 2 ^ f.width

/-- The fields that an instruction uses, with its operand in each (R62). -/
def Instr.fields : Instr → List (Field × Nat)
  | .cls | .ret => []
  | .jp a | .call a | .ldI a | .jpV0 a => [(.nnn, a.toNat)]
  | .seImm r b | .sneImm r b | .ldImm r b | .addImm r b | .rnd r b => [(.x, r.val), (.nn, b.toNat)]
  | .seReg r q | .ldReg r q | .orReg r q | .andReg r q | .xorReg r q | .addReg r q | .subReg r q | .shr r q
  | .subnReg r q | .shl r q | .sneReg r q => [(.x, r.val), (.y, q.val)]
  | .drw r q c => [(.x, r.val), (.y, q.val), (.n, c.val)]
  | .skp r | .sknp r | .ldVxDt r | .ldVxK r | .ldDtVx r | .ldStVx r | .addI r | .ldF r | .ldB r | .storeRegs r
  | .loadRegs r => [(.x, r.val)]

/-- Every operand fits its field. -/
def fieldsFit (operands : List (Field × Nat)) : Bool := operands.all fun p => p.1.fits p.2

/-- An instruction is well formed when every operand fits its field. The operand types of `Instr` hold no other value,
so every `Instr` is (`Laws.OperandsFit`); the check refuses operand lists that no `Instr` has. -/
def Instr.wellFormed (i : Instr) : Bool := fieldsFit i.fields

end Sys2Proof
end

