-- ==== Sys2Proof/Decode.lean ====
section
/-!
DEFINITION. Encoding and decoding (`30_encoding.md`): the fields of a word, the decoder over words and over bytes, the
encoder, and the opcode map R65 as data.
-/

namespace Sys2Proof

/-! ## Fields of a word (R61) -/

/-- `op = w[15:12]`. -/
def fieldOp (w : Word) : Nibble := w.extractLsb' 12 4

/-- `x = w[11:8]`, as a bit field. -/
def fieldX (w : Word) : Nibble := w.extractLsb' 8 4

/-- `y = w[7:4]`, as a bit field. -/
def fieldY (w : Word) : Nibble := w.extractLsb' 4 4

/-- `n = w[3:0]`, as a bit field. -/
def fieldN (w : Word) : Nibble := w.extractLsb' 0 4

/-- `nn = w[7:0]`. -/
def fieldNn (w : Word) : Byte := w.extractLsb' 0 8

/-- `nnn = w[11:0]`. -/
def fieldNnn (w : Word) : Nnn := w.extractLsb' 0 12

/-- The register number, or row count, that a 4-bit field holds. -/
def Nibble.index (b : Nibble) : Fin 16 := b.toFin

/-- The 4-bit field that holds a register number or a row count. -/
def nibbleOf (r : Fin 16) : Nibble := BitVec.ofFin r

/-! ## The decoder (R64 to R67) -/

/-- Family 8 by its low nibble; 8, 9, A, B, C, D and F are no instruction (R141). -/
def decodeAlu (x y : Reg) (n : Nibble) : Option Instr :=
  match n.toNat with
  | 0x0 => some (.ldReg x y)
  | 0x1 => some (.orReg x y)
  | 0x2 => some (.andReg x y)
  | 0x3 => some (.xorReg x y)
  | 0x4 => some (.addReg x y)
  | 0x5 => some (.subReg x y)
  | 0x6 => some (.shr x y)
  | 0x7 => some (.subnReg x y)
  | 0xE => some (.shl x y)
  | _ => none

/-- Family E by its low byte (R65). -/
def decodeKeySkip (x : Reg) (nn : Byte) : Option Instr :=
  match nn.toNat with
  | 0x9E => some (.skp x)
  | 0xA1 => some (.sknp x)
  | _ => none

/-- Family F by its low byte (R65). -/
def decodeMisc (x : Reg) (nn : Byte) : Option Instr :=
  match nn.toNat with
  | 0x07 => some (.ldVxDt x)
  | 0x0A => some (.ldVxK x)
  | 0x15 => some (.ldDtVx x)
  | 0x18 => some (.ldStVx x)
  | 0x1E => some (.addI x)
  | 0x29 => some (.ldF x)
  | 0x33 => some (.ldB x)
  | 0x55 => some (.storeRegs x)
  | 0x65 => some (.loadRegs x)
  | _ => none

/-- Decoding of a word: total, `none` for the verdict Unknown (R64, R66). -/
def decodeWord (w : Word) : Option Instr :=
  let x := (fieldX w).index
  let y := (fieldY w).index
  match (fieldOp w).toNat with
  | 0x0 => if w = 0x00E0#16 then some .cls else if w = 0x00EE#16 then some .ret else none
  | 0x1 => some (.jp (fieldNnn w))
  | 0x2 => some (.call (fieldNnn w))
  | 0x3 => some (.seImm x (fieldNn w))
  | 0x4 => some (.sneImm x (fieldNn w))
  | 0x5 => if fieldN w = 0#4 then some (.seReg x y) else none
  | 0x6 => some (.ldImm x (fieldNn w))
  | 0x7 => some (.addImm x (fieldNn w))
  | 0x8 => decodeAlu x y (fieldN w)
  | 0x9 => if fieldN w = 0#4 then some (.sneReg x y) else none
  | 0xA => some (.ldI (fieldNnn w))
  | 0xB => some (.jpV0 (fieldNnn w))
  | 0xC => some (.rnd x (fieldNn w))
  | 0xD => some (.drw x y (fieldN w).index)
  | 0xE => decodeKeySkip x (fieldNn w)
  | 0xF => decodeMisc x (fieldNn w)
  | _ => none

/-- The word `high ++ low` of two bytes, the high byte first (R44). -/
def wordOfBytes (high low : Byte) : Word := (high.setWidth 16 <<< 8) ||| low.setWidth 16

/-- Why bytes give no instruction. -/
inductive DecodeError where
  /-- A word that matches no row of R65. Safe: the machine goes on past it (R87). -/
  | unknownWord (w : Word)
  /-- Fewer than two bytes are left, so there is no word (R60). DESIGN CHOICE, safe, log entry 17: the machine never
  decodes so few, since a fetch that cannot read two bytes raises OutOfBoundsAccess (R83). -/
  | truncated
deriving DecidableEq, Repr

/-- Decoding of bytes: total; the instruction and the bytes after it, or the reason there is none (R60, R64). -/
def decode : List Byte → Except DecodeError (Instr × List Byte)
  | high :: low :: rest =>
    match decodeWord (wordOfBytes high low) with
    | some i => .ok (i, rest)
    | none => .error (.unknownWord (wordOfBytes high low))
  | _ => .error .truncated

/-! ## The encoder (R71) -/

/-- Format NNN: `op` and a 12-bit address. -/
def formatNNN (op : Nibble) (nnn : Nnn) : Word := (op.setWidth 16 <<< 12) ||| nnn.setWidth 16

/-- Format XNN, and XFF with `nn` the fixed low byte: `op`, `x` and a byte. -/
def formatXNN (op : Nibble) (x : Reg) (nn : Byte) : Word :=
  (op.setWidth 16 <<< 12) ||| ((nibbleOf x).setWidth 16 <<< 8) ||| nn.setWidth 16

/-- Format XYN, and XYF with `n` the fixed low nibble: `op`, `x`, `y` and a nibble. -/
def formatXYN (op : Nibble) (x y : Reg) (n : Nibble) : Word :=
  (op.setWidth 16 <<< 12) ||| ((nibbleOf x).setWidth 16 <<< 8) ||| ((nibbleOf y).setWidth 16 <<< 4) |||
    n.setWidth 16

/-- The word of an instruction (R65, R71). -/
def encode : Instr → Word
  | .cls => 0x00E0#16
  | .ret => 0x00EE#16
  | .jp nnn => formatNNN 0x1#4 nnn
  | .call nnn => formatNNN 0x2#4 nnn
  | .seImm x nn => formatXNN 0x3#4 x nn
  | .sneImm x nn => formatXNN 0x4#4 x nn
  | .seReg x y => formatXYN 0x5#4 x y 0x0#4
  | .ldImm x nn => formatXNN 0x6#4 x nn
  | .addImm x nn => formatXNN 0x7#4 x nn
  | .ldReg x y => formatXYN 0x8#4 x y 0x0#4
  | .orReg x y => formatXYN 0x8#4 x y 0x1#4
  | .andReg x y => formatXYN 0x8#4 x y 0x2#4
  | .xorReg x y => formatXYN 0x8#4 x y 0x3#4
  | .addReg x y => formatXYN 0x8#4 x y 0x4#4
  | .subReg x y => formatXYN 0x8#4 x y 0x5#4
  | .shr x y => formatXYN 0x8#4 x y 0x6#4
  | .subnReg x y => formatXYN 0x8#4 x y 0x7#4
  | .shl x y => formatXYN 0x8#4 x y 0xE#4
  | .sneReg x y => formatXYN 0x9#4 x y 0x0#4
  | .ldI nnn => formatNNN 0xA#4 nnn
  | .jpV0 nnn => formatNNN 0xB#4 nnn
  | .rnd x nn => formatXNN 0xC#4 x nn
  | .drw x y n => formatXYN 0xD#4 x y (nibbleOf n)
  | .skp x => formatXNN 0xE#4 x 0x9E#8
  | .sknp x => formatXNN 0xE#4 x 0xA1#8
  | .ldVxDt x => formatXNN 0xF#4 x 0x07#8
  | .ldVxK x => formatXNN 0xF#4 x 0x0A#8
  | .ldDtVx x => formatXNN 0xF#4 x 0x15#8
  | .ldStVx x => formatXNN 0xF#4 x 0x18#8
  | .addI x => formatXNN 0xF#4 x 0x1E#8
  | .ldF x => formatXNN 0xF#4 x 0x29#8
  | .ldB x => formatXNN 0xF#4 x 0x33#8
  | .storeRegs x => formatXNN 0xF#4 x 0x55#8
  | .loadRegs x => formatXNN 0xF#4 x 0x65#8

/-- The high byte of a word, the one at the lower address (R44, R71). -/
def highByte (w : Word) : Byte := w.extractLsb' 8 8

/-- The low byte of a word, the one at the next address (R44, R71). -/
def lowByte (w : Word) : Byte := w.extractLsb' 0 8

/-- The two bytes of an instruction as memory holds them (R71). -/
def encodeBytes (i : Instr) : List Byte := [highByte (encode i), lowByte (encode i)]

/-! ## The opcode map (R65) as data -/

/-- A row of R65: it selects the words w with `w & mask = bits`. -/
structure OpRow where
  pattern : String
  mask : Word
  bits : Word
deriving DecidableEq, Repr

/-- Whether a row selects a word (R65). -/
def OpRow.selects (r : OpRow) (w : Word) : Bool := w &&& r.mask = r.bits

/-- The row of R65 that an instruction belongs to. -/
def Instr.row : Instr → OpRow
  | .cls => ⟨"00E0", 0xFFFF, 0x00E0⟩
  | .ret => ⟨"00EE", 0xFFFF, 0x00EE⟩
  | .jp _ => ⟨"1NNN", 0xF000, 0x1000⟩
  | .call _ => ⟨"2NNN", 0xF000, 0x2000⟩
  | .seImm _ _ => ⟨"3XNN", 0xF000, 0x3000⟩
  | .sneImm _ _ => ⟨"4XNN", 0xF000, 0x4000⟩
  | .seReg _ _ => ⟨"5XY0", 0xF00F, 0x5000⟩
  | .ldImm _ _ => ⟨"6XNN", 0xF000, 0x6000⟩
  | .addImm _ _ => ⟨"7XNN", 0xF000, 0x7000⟩
  | .ldReg _ _ => ⟨"8XY0", 0xF00F, 0x8000⟩
  | .orReg _ _ => ⟨"8XY1", 0xF00F, 0x8001⟩
  | .andReg _ _ => ⟨"8XY2", 0xF00F, 0x8002⟩
  | .xorReg _ _ => ⟨"8XY3", 0xF00F, 0x8003⟩
  | .addReg _ _ => ⟨"8XY4", 0xF00F, 0x8004⟩
  | .subReg _ _ => ⟨"8XY5", 0xF00F, 0x8005⟩
  | .shr _ _ => ⟨"8XY6", 0xF00F, 0x8006⟩
  | .subnReg _ _ => ⟨"8XY7", 0xF00F, 0x8007⟩
  | .shl _ _ => ⟨"8XYE", 0xF00F, 0x800E⟩
  | .sneReg _ _ => ⟨"9XY0", 0xF00F, 0x9000⟩
  | .ldI _ => ⟨"ANNN", 0xF000, 0xA000⟩
  | .jpV0 _ => ⟨"BNNN", 0xF000, 0xB000⟩
  | .rnd _ _ => ⟨"CXNN", 0xF000, 0xC000⟩
  | .drw _ _ _ => ⟨"DXYN", 0xF000, 0xD000⟩
  | .skp _ => ⟨"EX9E", 0xF0FF, 0xE09E⟩
  | .sknp _ => ⟨"EXA1", 0xF0FF, 0xE0A1⟩
  | .ldVxDt _ => ⟨"FX07", 0xF0FF, 0xF007⟩
  | .ldVxK _ => ⟨"FX0A", 0xF0FF, 0xF00A⟩
  | .ldDtVx _ => ⟨"FX15", 0xF0FF, 0xF015⟩
  | .ldStVx _ => ⟨"FX18", 0xF0FF, 0xF018⟩
  | .addI _ => ⟨"FX1E", 0xF0FF, 0xF01E⟩
  | .ldF _ => ⟨"FX29", 0xF0FF, 0xF029⟩
  | .ldB _ => ⟨"FX33", 0xF0FF, 0xF033⟩
  | .storeRegs _ => ⟨"FX55", 0xF0FF, 0xF055⟩
  | .loadRegs _ => ⟨"FX65", 0xF0FF, 0xF065⟩

/-- The 34 rows, one instruction of each. -/
def opcodeRows : List OpRow :=
  [Instr.row .cls, Instr.row .ret, Instr.row (.jp 0), Instr.row (.call 0), Instr.row (.seImm 0 0),
   Instr.row (.sneImm 0 0), Instr.row (.seReg 0 0), Instr.row (.ldImm 0 0), Instr.row (.addImm 0 0)] ++
  [Instr.row (.ldReg 0 0), Instr.row (.orReg 0 0), Instr.row (.andReg 0 0), Instr.row (.xorReg 0 0),
   Instr.row (.addReg 0 0), Instr.row (.subReg 0 0), Instr.row (.shr 0 0), Instr.row (.subnReg 0 0),
   Instr.row (.shl 0 0)] ++
  [Instr.row (.sneReg 0 0), Instr.row (.ldI 0), Instr.row (.jpV0 0), Instr.row (.rnd 0 0), Instr.row (.drw 0 0 0),
   Instr.row (.skp 0), Instr.row (.sknp 0)] ++
  [Instr.row (.ldVxDt 0), Instr.row (.ldVxK 0), Instr.row (.ldDtVx 0), Instr.row (.ldStVx 0), Instr.row (.addI 0),
   Instr.row (.ldF 0), Instr.row (.ldB 0), Instr.row (.storeRegs 0), Instr.row (.loadRegs 0)]

/-- Where a field stands in a word: its lowest bit (R61). -/
def Field.lowBit : Field → Nat
  | .x => 8
  | .y => 4
  | .n => 0
  | .nn => 0
  | .nnn => 0

/-- `match | (x << 8) | (y << 4) | ...`: fixed bits with operand values placed in their fields (R71). -/
def placeFields (bits : Word) (operands : List (Field × Nat)) : Word :=
  operands.foldl (fun w p => w ||| (BitVec.ofNat 16 p.2 <<< p.1.lowBit)) bits

/-! ## The host's view of the decoder -/

/-- The 16 bits of an instruction that the host gives as a number, every bit above `nbits` taken as 0. -/
def tableWord (nbits w : Nat) : Word := BitVec.ofNat 16 (w % 2 ^ nbits)

/-- What the decoder reads from the bytes of an instruction whose bits are `w`: the one word's high byte stands first
(R44). -/
def decodeTableWord (nbits w : Nat) : Option Instr :=
  match decode [highByte (tableWord nbits w), lowByte (tableWord nbits w)] with
  | .ok (i, _) => some i
  | .error _ => none

end Sys2Proof
end

