-- ==== Sys2Proof/Config.lean ====
section
/-!
DEFINITION. What the spec fixes, what it leaves to the instance, and the free values (`00_scope.md` R6, R81).
-/

namespace Sys2Proof

/-- MEM_SIZE (R6, R40): addresses 0x000 to 0xFFF exist. -/
def Config.memSize : Nat := 0x1000

/-- FONT_STRIDE (R6, D13): bytes of one glyph. -/
def Config.fontStride : Nat := 5

/-- FB_W (R6, R150): pixels of a row. -/
def Config.fbWidth : Nat := 64

/-- FB_H (R6, R150): rows of the frame buffer. -/
def Config.fbHeight : Nat := 32

/-- SHIFT_SOURCE (R6, D5): the register that 8XY6 and 8XYE shift. -/
inductive ShiftSource where
  | vy
  | vx
deriving DecidableEq, Repr

/-- The parameters that `reset` takes and that stay fixed for the life of an instance (R6, R9, R210).
DESIGN CHOICE, safe (log entry 1): an instance carries its parameters with it, so that a statement about every state
is a statement about every setting. -/
structure Params where
  /-- ORIGIN: the reset value of PC (D2). -/
  origin : Word
  /-- SHIFT_SOURCE (D5). -/
  shiftSource : ShiftSource
  /-- LOADSTORE_I_INC: whether FX55 and FX65 leave I incremented by x + 1 (D6). -/
  loadStoreIInc : Bool
  /-- FONT_BASE: the address of the glyph of digit 0 (D13). -/
  fontBase : Word
deriving DecidableEq, Repr

/-- The defaults of R6. -/
def Params.default : Params :=
  { origin := 0x200, shiftSource := .vy, loadStoreIInc := false, fontBase := 0x050 }

/-- The settings R6 and R170 call legal: ORIGIN at most 0xFFE, FONT_BASE at most 0xFFFF − 1275. -/
def Params.legal (p : Params) : Bool :=
  p.origin.toNat ≤ 0xFFE && p.fontBase.toNat ≤ 0xFFFF - 1275

/-- Free value (log entry 2): the `keys` argument of a tick whose input the host has not queued, at its draw number.
R81: free at every call; U6: no relation between successive samples may be assumed. -/
opaque Config.freeKeys : Nat → Word

/-- Free value (log entry 2): the `rnd` argument of such a tick (R81, R124, U5). -/
opaque Config.freeRnd : Nat → Byte

/-- Free value (log entry 3): how many `decrement_timers` come before such a tick (R93, U7). -/
opaque Config.freeDecrements : Nat → Nat

end Sys2Proof
end

