-- ==== Sys2Proof/Machine/State.lean ====
section
/-!
DEFINITION. The state of the block (`10_state.md` R10) with the model's own fields, the reasons a step can stop, and the
state after reset (R27).
-/

namespace Sys2Proof.Machine

/-- MODE (R21). -/
inductive Mode where
  /-- A tick fetches and executes one instruction. -/
  | running
  /-- Blocked on a key during FX0A: a tick only samples the keys. -/
  | waitKey
  /-- A fatal error has been raised: a tick reports the latched error. -/
  | fault
deriving DecidableEq, Repr

/-- The fatal error kinds, codes 1 to 3 of R180. -/
inductive FatalKind where
  | outOfBoundsAccess
  | stackOverflow
  | stackUnderflow
deriving DecidableEq, Repr

/-- The kind and the payload of a fatal error (R24, R180). The payload is a memory address, a key number or SP. -/
structure FaultInfo where
  kind : FatalKind
  payload : Nat
deriving DecidableEq, Repr

/-- The result of a tick (R95). -/
inductive TickResult where
  /-- One instruction executed, or a key wait completed. -/
  | ok
  /-- The word `w` fetched at `pc` matched no instruction and was skipped as a no-op (R87, R184). -/
  | unknown (pc : Word) (w : Word)
  /-- The core is in WAIT_KEY after this tick. -/
  | awaitingKey
  /-- The core is in FAULT after this tick (R186). -/
  | fatal (info : FaultInfo)
deriving DecidableEq, Repr

/-- What the host supplies for one tick: how often it decrements the timers just before it (R93, R192), and the two
inputs of the tick itself (R81). -/
structure TickInput where
  decrements : Nat
  keys : Word
  rnd : Byte
deriving DecidableEq, Repr

/-- Memory in one canonical form: addresses strictly rising, no entry that holds what an unlisted address reads as
(`Memory.wf`). -/
abbrev Memory := List Host.Cell

/-- The frame buffer as its 32 rows of 64 pixels: pixel (px, py), FB[py * 64 + px], is bit px of row py (R19, R150;
log entry 12). -/
abbrev FrameBuffer := Vector PixelRow 32

/-- The state. The fields from `v` to `faultInfo` are the record of R10; the others are the model's own. -/
structure State where
  /-- The parameters of the instance, fixed at reset (R6, R210; log entry 1). -/
  params : Params
  /-- V[0]..V[15] (R11, R12). -/
  v : Vector Byte 16
  /-- I, all 16 bits (R13). -/
  i : Word
  /-- PC, all 16 bits (R14). -/
  pc : Word
  /-- SP, the number of entries on the stack, 0 to 16 (R15). -/
  sp : Fin 17
  /-- STK[0]..STK[15] (R15). -/
  stk : Vector Word 16
  /-- DT (R16). -/
  dt : Byte
  /-- ST (R17). -/
  st : Byte
  /-- MEM (R18). -/
  mem : Memory
  /-- FB (R19). -/
  fb : FrameBuffer
  /-- MODE (R21). -/
  mode : Mode
  /-- WX, the register that the key wait writes (R22). -/
  wx : Reg
  /-- KPREV, the keys at the previous sample of a wait (R23). -/
  kprev : Word
  /-- FAULTINFO (R24). -/
  faultInfo : Option FaultInfo
  /-- Model's own: the `keys` argument of the tick in progress (R20, R160; log entry 2). -/
  keys : Word
  /-- Model's own: the `rnd` argument of the tick in progress (R25, R124; log entry 2). -/
  rnd : Byte
  /-- Model's own: the inputs of the coming ticks that the host has queued, the next one first (log entry 2). -/
  inputs : List TickInput
  /-- Model's own: how many free inputs have been drawn (log entry 2). -/
  draws : Nat
  /-- Model's own: the result of the last tick, none before the first (R95; log entry 4). -/
  result : Option TickResult
deriving DecidableEq, Repr

/-- Why the model stops with a fault. -/
inductive Fault where
  /-- Raised by a tick in a state with MODE = FAULT and no FAULTINFO, which R28 rules out and no operation reaches: R89
  has no error to report there. Safe, log entry 7. -/
  | faultInfoMissing
deriving DecidableEq, Repr

/-- Why the model gives an instruction no meaning. -/
inductive Refusal where
  /-- Raised by an arm of `exec` whose instruction has no meaning yet. Safe. No arm raises it in this model. -/
  | notModelled (mnemonic : String)
deriving DecidableEq, Repr

/-- The state after `reset` with the parameters `p` (R27, R210): every value is R27's, but for the model's own fields
(log entry 6). -/
def State.resetWith (p : Params) : State where
  params := p
  v := Vector.replicate 16 0
  i := 0
  pc := p.origin
  sp := 0
  stk := Vector.replicate 16 0
  dt := 0
  st := 0
  mem := []
  fb := Vector.replicate 32 0
  mode := .running
  wx := 0
  kprev := 0
  faultInfo := none
  keys := 0
  rnd := 0
  inputs := []
  draws := 0
  result := none

/-- The state after `reset` with the default parameters of R6. -/
def State.reset : State := State.resetWith Params.default

end Sys2Proof.Machine
end

