-- ==== Sys2Proof/Machine/Ops.lean ====
section
/-!
DEFINITION. The named operations over memory, registers, stack and frame buffer, the PC actions, and fatal entry.
-/

namespace Sys2Proof.Machine

/-! ## Memory (`20_memory.md`) -/

/-- What an address that the list does not name reads as: memory is zero-initialised (R27; log entry 9). -/
def Memory.unlisted : Byte := 0

/-- MEM[a] of the list; the range check is `memRead`'s. -/
def Memory.read : Memory → Nat → Byte
  | [], _ => Memory.unlisted
  | (k, b) :: rest, a => if k = a then b else Memory.read rest a

/-- `b` put in front at `a`, unless it is what `a` reads as when unlisted. -/
def Memory.putFront (a : Nat) (b : Byte) (m : Memory) : Memory :=
  if b = Memory.unlisted then m else (a, b) :: m

/-- MEM[a] <- b in the list, keeping the canonical form; the range check is `memWrite`'s. -/
def Memory.write : Memory → Nat → Byte → Memory
  | [], a, b => Memory.putFront a b []
  | (k, c) :: rest, a, b =>
    if a < k then Memory.putFront a b ((k, c) :: rest)
    else if a = k then Memory.putFront a b rest
    else (k, c) :: Memory.write rest a b

/-- The canonical form from the address `least` on: addresses strictly rising from it, inside MEM (R40), and no entry
that holds the unlisted value. -/
def Memory.wfFrom : Nat → Memory → Bool
  | _, [] => true
  | least, (k, b) :: rest =>
    least ≤ k && k < Config.memSize && b ≠ Memory.unlisted && Memory.wfFrom (k + 1) rest

/-- The canonical form of memory. -/
def Memory.wf (m : Memory) : Bool := Memory.wfFrom 0 m

/-- The error of an access to an address that does not exist (R181). -/
def outOfBounds (index : Nat) : FaultInfo := ⟨.outOfBoundsAccess, index⟩

/-- `MemRead(addr, 1)` (R8, R41). -/
def Memory.memRead (m : Memory) (addr : Nat) : Except FaultInfo Byte :=
  if addr < Config.memSize then .ok (m.read addr) else .error (outOfBounds addr)

/-- `MemWrite(addr, 1, b)` (R8, R42). -/
def Memory.memWrite (m : Memory) (addr : Nat) (b : Byte) : Except FaultInfo Memory :=
  if addr < Config.memSize then .ok (m.write addr b) else .error (outOfBounds addr)

/-- The bytes `bs` stored from the address `base` up, in order (R46, R50). -/
def Memory.storeBytes : Memory → Nat → List Byte → Memory
  | m, _, [] => m
  | m, base, b :: bs => Memory.storeBytes (m.write base b) (base + 1) bs

/-- Whether all `len` bytes from the integer address `base` up exist; none is needed when `len` is 0 (R43, R55). -/
def rangeExists (base len : Nat) : Bool := len = 0 || base + len ≤ Config.memSize

/-- The error of a multi-byte access that leaves memory: its lowest address out of range, max(base, 0x1000) (R55). -/
def rangeError (base : Nat) : FaultInfo := outOfBounds (max base Config.memSize)

/-! ## Registers -/

/-- V[r] (R11). -/
def State.reg (s : State) (r : Reg) : Byte := s.v[r]

/-- V[r] <- b (R11). -/
def State.writeReg (s : State) (r : Reg) (b : Byte) : State := { s with v := s.v.set r b }

/-- The result to V[r] first, the flag to VF second, so that the flag survives when r is VF (R130). -/
def State.writeResultFlag (s : State) (r : Reg) (result flag : Byte) : State :=
  (s.writeReg r result).writeReg Reg.vf flag

/-- I <- a (R13). -/
def State.setI (s : State) (a : Word) : State := { s with i := a }

/-- MEM replaced by `m`. -/
def State.setMem (s : State) (m : Memory) : State := { s with mem := m }

/-- FB replaced by `fb`. -/
def State.setFb (s : State) (fb : FrameBuffer) : State := { s with fb := fb }

/-- DT <- b (R16). -/
def State.setDt (s : State) (b : Byte) : State := { s with dt := b }

/-- ST <- b (R17). -/
def State.setSt (s : State) (b : Byte) : State := { s with st := b }

/-! ## The PC actions (`40_cycle.md` R85, R86) -/

/-- What an instruction does with PC. -/
inductive PcAction where
  | advance
  | skip
  | jump (target : Word)
  | hold
deriving DecidableEq, Repr

/-- The new PC of an action, from the PC of the instruction (R85). -/
def PcAction.newPc (action : PcAction) (pcPre : Word) : Word :=
  match action with
  | .advance => pcPre + 2
  | .skip => pcPre + 4
  | .jump target => target
  | .hold => pcPre

/-- The result of a tick whose instruction yields the action (R85). -/
def PcAction.tickResult : PcAction → TickResult
  | .hold => .awaitingKey
  | _ => .ok

/-- The action of a skip (R114). -/
def skipIf (condition : Bool) : PcAction := if condition then .skip else .advance

/-- The end of an instruction that completes: its PC action and its result (R85). -/
def State.retire (s : State) (action : PcAction) : State :=
  { s with pc := action.newPc s.pc, result := some action.tickResult }

/-! ## Fatal entry (`60_exceptions.md`) -/

/-- Taking a fatal error, from the state before the instruction that raises it (R186): FAULTINFO and MODE are written
and the tick's result is Fatal; V, I, PC, SP, STK, DT, ST, MEM, FB, WX and KPREV keep their values. There is no handler
address and no saved PC; and there is no return from it but `reset` (R187, `State.hostReset`). -/
def State.raise (s : State) (e : FaultInfo) : State :=
  { s with faultInfo := some e, mode := .fault, result := some (.fatal e) }

/-- A state write and PC action that may raise: the new state, or fatal entry from the old one (R85). -/
def State.orRaise (s : State) : Except FaultInfo State → State
  | .ok t => t
  | .error e => s.raise e

/-! ## The stack (`10_state.md` R15) -/

/-- `Push(a)`. -/
def State.push (s : State) (a : Word) : Except FaultInfo State :=
  if h : s.sp.val < 16 then
    .ok { s with stk := s.stk.set s.sp.val a, sp := ⟨s.sp.val + 1, by omega⟩ }
  else .error ⟨.stackOverflow, s.sp.val⟩

/-- `Pop()`: the popped value and the state after it. STK[SP] keeps its value (R100; log entry 13). -/
def State.pop (s : State) : Except FaultInfo (Word × State) :=
  if h : s.sp.val = 0 then .error ⟨.stackUnderflow, s.sp.val⟩
  else .ok (s.stk[s.sp.val - 1]'(by omega), { s with sp := ⟨s.sp.val - 1, by omega⟩ })

/-! ## The frame buffer (`45_display.md` R151) -/

/-- `FbRead(px, py)`: coordinates are reduced modulo 64 and 32 (R151, R156). -/
def FrameBuffer.fbRead (fb : FrameBuffer) (px py : Nat) : Bool :=
  (fb[py % 32]'(Nat.mod_lt _ (by decide))).getLsbD (px % 64)

/-- `FbXor(px, py)`: the pixel is toggled (R151, C8). -/
def FrameBuffer.fbXor (fb : FrameBuffer) (px py : Nat) : FrameBuffer :=
  fb.set (py % 32) (fb[py % 32]'(Nat.mod_lt _ (by decide)) ^^^ BitVec.twoPow 64 (px % 64)) (Nat.mod_lt _ (by decide))

/-- `FbClear()`. -/
def FrameBuffer.clear : FrameBuffer := Vector.replicate 32 0

/-- FB[j], the pixel of index j in row-major order (R19, R150). -/
def FrameBuffer.pixel (fb : FrameBuffer) (j : Nat) : Bool := fb.fbRead (j % 64) (j / 64)

/-! ## The host's inputs (`40_cycle.md` R81, R93) -/

/-- One timer decremented: by 1 when it is not 0 (R192). -/
def decrementTimer (t : Byte) : Byte := if t = 0 then 0 else t - 1

/-- `decrement_timers` (R192). -/
def State.decrementTimers (s : State) : State :=
  { s with dt := decrementTimer s.dt, st := decrementTimer s.st }

/-- `decrement_timers` applied `n` times. -/
def State.decrementTimersTimes (s : State) (n : Nat) : State :=
  { s with dt := decrementTimer^[n] s.dt, st := decrementTimer^[n] s.st }

/-- The input of the next tick: the head of the queue, else the free values of the next draw (R81; log entries 2, 3). -/
def State.nextInput (s : State) : TickInput :=
  match s.inputs with
  | input :: _ => input
  | [] =>
    { decrements := Config.freeDecrements s.draws, keys := Config.freeKeys s.draws, rnd := Config.freeRnd s.draws }

/-- How many draws have been made once the next tick has its input. -/
def State.nextDraws (s : State) : Nat :=
  match s.inputs with
  | _ :: _ => s.draws
  | [] => s.draws + 1

/-- The host's part at the start of a step: the timer decrements that fall before the tick (R93), and the tick's inputs
(R81). -/
def State.beginTick (s : State) : State :=
  { s.decrementTimersTimes s.nextInput.decrements with
    keys := s.nextInput.keys
    rnd := s.nextInput.rnd
    inputs := s.inputs.tail
    draws := s.nextDraws }

/-! ## Fetch (`40_cycle.md` R83) -/

/-- The word at PC: the byte at PC is read first, and is the high byte (R44, R83). PC + 1 is an integer address (R43). -/
def State.fetchWord (s : State) : Except FaultInfo Word :=
  match s.mem.memRead s.pc.toNat with
  | .error e => .error e
  | .ok high =>
    match s.mem.memRead (s.pc.toNat + 1) with
    | .error e => .error e
    | .ok low => .ok (wordOfBytes high low)

/-- An Unknown word: a no-op advance with the diagnostic as result (R87, R184). -/
def State.skipUnknown (s : State) (w : Word) : State :=
  { s with pc := s.pc + 2, result := some (.unknown s.pc w) }

/-- A word put where the next tick fetches, its high byte first (R71), and what that fetch needs: MODE RUNNING with no
latched error, and a PC from which two bytes can be read (R83; log entry 18). -/
def State.placeWord (s : State) (w : Word) : State :=
  let pc : Word := if s.pc.toNat + 1 < Config.memSize then s.pc else 0
  { s with
    pc := pc
    mode := .running
    faultInfo := none
    mem := s.mem.storeBytes pc.toNat [highByte w, lowByte w] }

end Sys2Proof.Machine
end

