-- ==== Sys2Proof/Machine/Operands.lean ====
section
/-!
DEFINITION. The operand forms: the shifted register, addresses from I, the register ranges of FX55 and FX65, the decimal
digits of FX33, the sprite of DXYN, the key of EX9E and EXA1.
-/

namespace Sys2Proof.Machine

/-- The operand of 8XY6 and 8XYE: V[y], or V[x] with SHIFT_SOURCE = VX (R137, R139). -/
def State.shiftOperand (s : State) (x y : Reg) : Byte :=
  match s.params.shiftSource with
  | .vy => s.reg y
  | .vx => s.reg x

/-- The integer address of byte 0 of an access through I: I with its full 16 bits, never reduced (R43, R175). -/
def State.baseAddr (s : State) : Nat := s.i.toNat

/-- An access of `len` bytes through I: `t` when every byte exists, else fatal entry with no write (R55, R175). -/
def State.throughI (s : State) (len : Nat) (t : State) : State :=
  if rangeExists s.baseAddr len then t else s.raise (rangeError s.baseAddr)

/-- The bytes V[0]..V[x], V[0] first (R173). -/
def State.regRange (s : State) (x : Reg) : List Byte := s.v.toList.take (x.val + 1)

/-- V[j] <- MEM[base + j] for j = 0..x; the registers above x keep their values (R174). -/
def State.loadRange (s : State) (base : Nat) (x : Reg) : State :=
  { s with v := Vector.ofFn fun j : Reg => if j ≤ x then s.mem.read (base + j.val) else s.reg j }

/-- I <- I + x + 1 modulo 2^16 when LOADSTORE_I_INC, else I unchanged (R173, R174). -/
def State.stepI (s : State) (x : Reg) : State :=
  if s.params.loadStoreIInc then s.setI (s.i + BitVec.ofNat 16 (x.val + 1)) else s

/-- The three decimal digits of a byte, hundreds first (R172). -/
def bcdDigits (b : Byte) : List Byte :=
  [BitVec.ofNat 8 (b.toNat / 100), BitVec.ofNat 8 (b.toNat / 10 % 10), BitVec.ofNat 8 (b.toNat % 10)]

/-- `font_sprite_address`: FONT_BASE + FONT_STRIDE * V[x], with no masking (R170). Legal FONT_BASE keeps the sum below
2^16; what the 16 bits of I hold for another is log entry 10. -/
def State.fontAddress (s : State) (b : Byte) : Word :=
  BitVec.ofNat 16 (s.params.fontBase.toNat + Config.fontStride * b.toNat)

/-- The sprite's bytes, row 0 first (R154). -/
def State.spriteRows (s : State) (n : RowCount) : List Byte :=
  (List.range n.val).map fun r => s.mem.read (s.baseAddr + r)

/-- The columns of a sprite row that hold a 1, as offsets: bit 7 is offset 0, the leftmost (R154). -/
def litColumns (row : Byte) : List Nat := (List.range 8).filter fun c => row.getLsbD (7 - c)

/-- The pixels that rows of a sprite toggle, as unreduced coordinates, in the sequencer's order (R153, R156). -/
def spritePixels (x0 : Nat) : Nat → List Byte → List (Nat × Nat)
  | _, [] => []
  | y, row :: rows => (litColumns row).map (fun c => (x0 + c, y)) ++ spritePixels x0 (y + 1) rows

/-- One pixel write of the sequencer: a collision when the pixel is lit, and the pixel toggled (R153). -/
def drawPixel (acc : FrameBuffer × Bool) (p : Nat × Nat) : FrameBuffer × Bool :=
  (acc.1.fbXor p.1 p.2, acc.2 || acc.1.fbRead p.1 p.2)

/-- The whole sprite XORed into the frame buffer, with the collision flag (R153). -/
def drawPixels (fb : FrameBuffer) (pixels : List (Nat × Nat)) : FrameBuffer × Bool :=
  pixels.foldl drawPixel (fb, false)

/-- The pixels of the sprite of DXYN with the state's V[x], V[y], I and MEM. -/
def State.spriteOf (s : State) (x y : Reg) (n : RowCount) : List (Nat × Nat) :=
  spritePixels (s.reg x).toNat (s.reg y).toNat (s.spriteRows n)

/-- The key that a register selects, `t` of whether it is down; a number above 0x0F is out of range (R167). -/
def State.withKey (s : State) (x : Reg) (t : Bool → State) : State :=
  if (s.reg x).toNat ≤ 0x0F then t (s.keys.getLsbD (s.reg x).toNat) else s.raise (outOfBounds (s.reg x).toNat)

/-- The least key down in a key vector (R88). -/
def leastKey (keys : Word) : Option Key := (List.finRange 16).find? fun k => keys.getLsbD k.val

/-- The keys down now that were up at the previous sample (R88). -/
def State.newKeys (s : State) : Word := s.keys &&& ~~~s.kprev

end Sys2Proof.Machine
end

