-- ==== Sys2Proof/Machine/Alu.lean ====
section
/-!
DEFINITION. 8XY0 to 8XY7 and 8XYE (`44_alu.md`). Both operands are read before a write (R130a).
-/

namespace Sys2Proof.Machine

/-- 8XY0, LD Vx, Vy (R131). -/
def execLdReg (x y : Reg) (s : State) : Host.Outcome State Fault Refusal :=
  .next ((s.writeReg x (s.reg y)).retire .advance)

/-- 8XY1, OR Vx, Vy (R132): VF is not reset. -/
def execOrReg (x y : Reg) (s : State) : Host.Outcome State Fault Refusal :=
  .next ((s.writeReg x (s.reg x ||| s.reg y)).retire .advance)

/-- 8XY2, AND Vx, Vy (R133). -/
def execAndReg (x y : Reg) (s : State) : Host.Outcome State Fault Refusal :=
  .next ((s.writeReg x (s.reg x &&& s.reg y)).retire .advance)

/-- 8XY3, XOR Vx, Vy (R134). -/
def execXorReg (x y : Reg) (s : State) : Host.Outcome State Fault Refusal :=
  .next ((s.writeReg x (s.reg x ^^^ s.reg y)).retire .advance)

/-- 8XY4, ADD Vx, Vy (R135). -/
def execAddReg (x y : Reg) (s : State) : Host.Outcome State Fault Refusal :=
  .next ((s.writeResultFlag x (s.reg x + s.reg y) (flagByte (carryOut (s.reg x) (s.reg y)))).retire .advance)

/-- 8XY5, SUB Vx, Vy (R136). -/
def execSubReg (x y : Reg) (s : State) : Host.Outcome State Fault Refusal :=
  .next ((s.writeResultFlag x (s.reg x - s.reg y) (flagByte (noBorrow (s.reg x) (s.reg y)))).retire .advance)

/-- 8XY7, SUBN Vx, Vy (R138). -/
def execSubnReg (x y : Reg) (s : State) : Host.Outcome State Fault Refusal :=
  .next ((s.writeResultFlag x (s.reg y - s.reg x) (flagByte (noBorrow (s.reg y) (s.reg x)))).retire .advance)

/-- 8XY6, SHR Vx, Vy (R137): the flag is the operand's bit before the shift (C4). -/
def execShr (x y : Reg) (s : State) : Host.Outcome State Fault Refusal :=
  .next ((s.writeResultFlag x (s.shiftOperand x y >>> 1)
    (flagByte (shiftedOutRight (s.shiftOperand x y)))).retire .advance)

/-- 8XYE, SHL Vx, Vy (R139). -/
def execShl (x y : Reg) (s : State) : Host.Outcome State Fault Refusal :=
  .next ((s.writeResultFlag x (s.shiftOperand x y <<< 1)
    (flagByte (shiftedOutLeft (s.shiftOperand x y)))).retire .advance)

end Sys2Proof.Machine
end

