-- ==== Sys2Proof/Machine/ControlTransfer.lean ====
section
/-! DEFINITION. 00EE, 1NNN, 2NNN, BNNN (`41_control_transfer.md`). -/

namespace Sys2Proof.Machine

/-- 00EE, RET (R100). -/
def execRet (s : State) : Host.Outcome State Fault Refusal :=
  .next (s.orRaise (s.pop.map fun popped => popped.2.retire (.jump popped.1)))

/-- 1NNN, JP nnn (R101). -/
def execJp (nnn : Nnn) (s : State) : Host.Outcome State Fault Refusal :=
  .next (s.retire (.jump (nnn.setWidth 16)))

/-- 2NNN, CALL nnn (R102): the value pushed is the address after the call (C1). -/
def execCall (nnn : Nnn) (s : State) : Host.Outcome State Fault Refusal :=
  .next (s.orRaise ((s.push (s.pc + 2)).map fun pushed => pushed.retire (.jump (nnn.setWidth 16))))

/-- BNNN, JP V0, nnn (R103): the sum is kept unreduced. -/
def execJpV0 (nnn : Nnn) (s : State) : Host.Outcome State Fault Refusal :=
  .next (s.retire (.jump (nnn.setWidth 16 + (s.reg 0).setWidth 16)))

end Sys2Proof.Machine
end

