-- ==== Sys2Proof/Machine/Display.lean ====
section
/-! DEFINITION. 00E0 and DXYN (`45_display.md`). -/

namespace Sys2Proof.Machine

/-- 00E0, CLS (R152). -/
def execCls (s : State) : Host.Outcome State Fault Refusal :=
  .next ((s.setFb FrameBuffer.clear).retire .advance)

/-- DXYN with every sprite byte readable: the frame buffer, then VF (R153). -/
def State.draw (s : State) (x y : Reg) (n : RowCount) : State :=
  let drawn := drawPixels s.fb (s.spriteOf x y n)
  (s.setFb drawn.1).writeReg Reg.vf (flagByte drawn.2)

/-- DXYN, DRW Vx, Vy, n (R153, R154, R156): n = 0 reads nothing and cannot fault. -/
def execDrw (x y : Reg) (n : RowCount) (s : State) : Host.Outcome State Fault Refusal :=
  .next (s.throughI n.val ((s.draw x y n).retire .advance))

end Sys2Proof.Machine
end

