-- ==== Sys2Proof/Machine/KeysTimers.lean ====
section
/-! DEFINITION. EX9E, EXA1, FX0A, FX07, FX15, FX18 (`46_keys_timers.md`), with the later ticks of FX0A (R88). -/

namespace Sys2Proof.Machine

/-- EX9E, SKP Vx (R161, R167). -/
def execSkp (x : Reg) (s : State) : Host.Outcome State Fault Refusal :=
  .next (s.withKey x fun down => s.retire (skipIf down))

/-- EXA1, SKNP Vx (R162, R167). -/
def execSknp (x : Reg) (s : State) : Host.Outcome State Fault Refusal :=
  .next (s.withKey x fun down => s.retire (skipIf (!down)))

/-- The beginning of a key wait: WX, KPREV and MODE (R163). -/
def State.enterWait (s : State) (x : Reg) : State :=
  { s with wx := x, kprev := s.keys, mode := .waitKey }

/-- FX0A, LD Vx, K: the tick that fetches it (R163). -/
def execLdVxK (x : Reg) (s : State) : Host.Outcome State Fault Refusal :=
  .next ((s.enterWait x).retire .hold)

/-- The end of a key wait: the key's number to V[WX], MODE back to RUNNING (R88). -/
def State.leaveWait (s : State) (k : Key) : State :=
  { s.writeReg s.wx (BitVec.ofNat 8 k.val) with mode := .running }

/-- A sample that ends no wait: KPREV takes it (R88). -/
def State.keepWaiting (s : State) : State :=
  { s with kprev := s.keys, result := some .awaitingKey }

/-- `wait_tick`: a tick in WAIT_KEY (R88). -/
def State.waitTick (s : State) : State :=
  match leastKey s.newKeys with
  | some k => (s.leaveWait k).retire .advance
  | none => s.keepWaiting

/-- FX07, LD Vx, DT (R164). -/
def execLdVxDt (x : Reg) (s : State) : Host.Outcome State Fault Refusal :=
  .next ((s.writeReg x s.dt).retire .advance)

/-- FX15, LD DT, Vx (R165). -/
def execLdDtVx (x : Reg) (s : State) : Host.Outcome State Fault Refusal :=
  .next ((s.setDt (s.reg x)).retire .advance)

/-- FX18, LD ST, Vx (R166). -/
def execLdStVx (x : Reg) (s : State) : Host.Outcome State Fault Refusal :=
  .next ((s.setSt (s.reg x)).retire .advance)

end Sys2Proof.Machine
end

