-- ==== Sys2Proof/Machine/Loads.lean ====
section
/-! DEFINITION. 6XNN, 7XNN, ANNN, FX1E, CXNN (`43_register_loads.md`). -/

namespace Sys2Proof.Machine

/-- 6XNN, LD Vx, nn (R120). -/
def execLdImm (x : Reg) (nn : Byte) (s : State) : Host.Outcome State Fault Refusal :=
  .next ((s.writeReg x nn).retire .advance)

/-- 7XNN, ADD Vx, nn (R121): modulo 256, no flag. -/
def execAddImm (x : Reg) (nn : Byte) (s : State) : Host.Outcome State Fault Refusal :=
  .next ((s.writeReg x (s.reg x + nn)).retire .advance)

/-- ANNN, LD I, nnn (R122). -/
def execLdI (nnn : Nnn) (s : State) : Host.Outcome State Fault Refusal :=
  .next ((s.setI (nnn.setWidth 16)).retire .advance)

/-- FX1E, ADD I, Vx (R123): modulo 2^16, no flag. -/
def execAddI (x : Reg) (s : State) : Host.Outcome State Fault Refusal :=
  .next ((s.setI (s.i + (s.reg x).setWidth 16)).retire .advance)

/-- CXNN, RND Vx, nn (R124): `rnd` is the tick's input. -/
def execRnd (x : Reg) (nn : Byte) (s : State) : Host.Outcome State Fault Refusal :=
  .next ((s.writeReg x (s.rnd &&& nn)).retire .advance)

end Sys2Proof.Machine
end

