-- ==== Sys2Proof/Machine/MemoryOps.lean ====
section
/-! DEFINITION. FX29, FX33, FX55, FX65 (`47_memory_ops.md`, under R175). -/

namespace Sys2Proof.Machine

/-- FX29, LD F, Vx (R170). -/
def execLdF (x : Reg) (s : State) : Host.Outcome State Fault Refusal :=
  .next ((s.setI (s.fontAddress (s.reg x))).retire .advance)

/-- FX33, LD B, Vx (R172). -/
def execLdB (x : Reg) (s : State) : Host.Outcome State Fault Refusal :=
  .next (s.throughI 3 ((s.setMem (s.mem.storeBytes s.baseAddr (bcdDigits (s.reg x)))).retire .advance))

/-- FX55, LD [I], Vx (R173): the range is inclusive. -/
def execStoreRegs (x : Reg) (s : State) : Host.Outcome State Fault Refusal :=
  .next (s.throughI (x.val + 1)
    (((s.setMem (s.mem.storeBytes s.baseAddr (s.regRange x))).stepI x).retire .advance))

/-- FX65, LD Vx, [I] (R174): the range is inclusive. -/
def execLoadRegs (x : Reg) (s : State) : Host.Outcome State Fault Refusal :=
  .next (s.throughI (x.val + 1) (((s.loadRange s.baseAddr x).stepI x).retire .advance))

end Sys2Proof.Machine
end

