-- ==== Sys2Proof/Machine/Skips.lean ====
section
/-! DEFINITION. 3XNN, 4XNN, 5XY0, 9XY0 (`42_skips.md`, under R114). -/

namespace Sys2Proof.Machine

/-- 3XNN, SE Vx, nn (R110). -/
def execSeImm (x : Reg) (nn : Byte) (s : State) : Host.Outcome State Fault Refusal :=
  .next (s.retire (skipIf (s.reg x = nn)))

/-- 4XNN, SNE Vx, nn (R111). -/
def execSneImm (x : Reg) (nn : Byte) (s : State) : Host.Outcome State Fault Refusal :=
  .next (s.retire (skipIf (s.reg x ≠ nn)))

/-- 5XY0, SE Vx, Vy (R112). -/
def execSeReg (x y : Reg) (s : State) : Host.Outcome State Fault Refusal :=
  .next (s.retire (skipIf (s.reg x = s.reg y)))

/-- 9XY0, SNE Vx, Vy (R113). -/
def execSneReg (x y : Reg) (s : State) : Host.Outcome State Fault Refusal :=
  .next (s.retire (skipIf (s.reg x ≠ s.reg y)))

end Sys2Proof.Machine
end

