-- ==== Sys2Proof/Machine/Cycle.lean ====
section
/-! DEFINITION. The tick in each mode (`40_cycle.md` R82 to R89). -/

namespace Sys2Proof.Machine

/-- `run_tick`: fetch, decode, execute (R83 to R87). A fetch that fails raises before anything else (R188). -/
def State.runTick (s : State) : Host.Outcome State Fault Refusal :=
  match s.fetchWord with
  | .error e => .next (s.raise e)
  | .ok w =>
    match decodeWord w with
    | none => .next (s.skipUnknown w)
    | some i => exec i s

/-- A tick in FAULT: no state changes and the result is the latched error again (R89). -/
def State.faultTick (s : State) : Host.Outcome State Fault Refusal :=
  match s.faultInfo with
  | some e => .next { s with result := some (.fatal e) }
  | none => .fault .faultInfoMissing

/-- `tick(keys, rnd)` on the inputs that the state holds (R82). -/
def State.tick (s : State) : Host.Outcome State Fault Refusal :=
  match s.mode with
  | .running => s.runTick
  | .waitKey => .next s.waitTick
  | .fault => s.faultTick

end Sys2Proof.Machine
end

