-- ==== Sys2Proof/Machine/HostOps.lean ====
section
/-!
DEFINITION. The operations that the host applies to the block besides `tick` and `decrement_timers` (`40_cycle.md` R80):
`reset`, `load_write` with the loader's own work, `snapshot`, `observe`; and the error codes of R180.
-/

namespace Sys2Proof.Machine

/-- The five error kinds (R180). -/
inductive ErrorKind where
  | outOfBoundsAccess
  | stackOverflow
  | stackUnderflow
  | unknownInstruction
  | invalidProgramLoad
deriving DecidableEq, Repr

/-- The numeric codes of R180. -/
def ErrorKind.code : ErrorKind → Nat
  | .outOfBoundsAccess => 1
  | .stackOverflow => 2
  | .stackUnderflow => 3
  | .unknownInstruction => 4
  | .invalidProgramLoad => 5

/-- A fatal kind as an error kind (R180). -/
def FatalKind.errorKind : FatalKind → ErrorKind
  | .outOfBoundsAccess => .outOfBoundsAccess
  | .stackOverflow => .stackOverflow
  | .stackUnderflow => .stackUnderflow

/-- The error that a tick's result reports, if any (R95, R180). -/
def TickResult.errorKind : TickResult → Option ErrorKind
  | .ok => none
  | .unknown _ _ => some .unknownInstruction
  | .awaitingKey => none
  | .fatal info => some info.kind.errorKind

/-- `reset` applied in any MODE (R210, R187): every piece of the block's state takes its reset value. What is not the
block's, the queued inputs and the number of the next draw, goes on (log entry 23). -/
def State.hostReset (s : State) (p : Params) : State :=
  { State.resetWith p with inputs := s.inputs, draws := s.draws }

/-- A launch state: reset with an arbitrary memory (R212, D27). -/
def State.launch (p : Params) (m : Memory) : State := { State.resetWith p with mem := m }

/-- What the loader is told when a load does not take place. -/
inductive LoadError where
  /-- `load_write` to an address above 0xFFF (R212). -/
  | outOfBoundsAccess (addr : Nat)
  /-- A program too large for the memory from ORIGIN up (R185, R213). -/
  | invalidProgramLoad
  /-- A load after the first tick, outside the interface contract (R53, R212, U28). Safe, log entry 15. -/
  | afterFirstTick
deriving DecidableEq, Repr

/-- `load_write(addr, b)` (R212): MEM only, MODE unchanged also on an error. -/
def State.loadWrite (s : State) (addr : Nat) (b : Byte) : Except LoadError State :=
  if s.result.isSome then .error .afterFirstTick
  else if addr < Config.memSize then .ok (s.setMem (s.mem.write addr b))
  else .error (.outOfBoundsAccess addr)

/-- `load_write` for each byte in turn, from `addr` up (R212). DESIGN CHOICE, safe (log entry 24): a bulk load of which
one `load_write` fails answers that error and no state; the spec does not say what the load as a whole leaves. -/
def State.loadBytes : State → Nat → List Byte → Except LoadError State
  | s, _, [] => .ok s
  | s, addr, b :: bs =>
    match s.loadWrite addr b with
    | .error e => .error e
    | .ok t => t.loadBytes (addr + 1) bs

/-- Loading a program at ORIGIN, which fits when ORIGIN + L ≤ 4096 (R212, R213). -/
def State.loadProgram (s : State) (program : List Byte) : Except LoadError State :=
  if s.params.origin.toNat + program.length ≤ Config.memSize then s.loadBytes s.params.origin.toNat program
  else .error .invalidProgramLoad

/-- The customary glyphs of the digits 0 to F, five bytes each (R171). -/
def fontGlyphs : List Byte :=
  [0xF0, 0x90, 0x90, 0x90, 0xF0] ++ [0x20, 0x60, 0x20, 0x20, 0x70] ++ [0xF0, 0x10, 0xF0, 0x80, 0xF0] ++
  [0xF0, 0x10, 0xF0, 0x10, 0xF0] ++ [0x90, 0x90, 0xF0, 0x10, 0x10] ++ [0xF0, 0x80, 0xF0, 0x10, 0xF0] ++
  [0xF0, 0x80, 0xF0, 0x90, 0xF0] ++ [0xF0, 0x10, 0x20, 0x40, 0x40] ++ [0xF0, 0x90, 0xF0, 0x90, 0xF0] ++
  [0xF0, 0x90, 0xF0, 0x10, 0xF0] ++ [0xF0, 0x90, 0xF0, 0x90, 0x90] ++ [0xE0, 0x90, 0xE0, 0x90, 0xE0] ++
  [0xF0, 0x80, 0x80, 0x80, 0xF0] ++ [0xE0, 0x90, 0x90, 0x90, 0xE0] ++ [0xF0, 0x80, 0xF0, 0x80, 0xF0] ++
  [0xF0, 0x80, 0xF0, 0x80, 0x80]

/-- Loading the font at FONT_BASE, the loader's duty for a program that uses FX29 (R171, R214). With a FONT_BASE above
0xFB0 a glyph byte falls outside memory and the load fails as a whole (log entry 24). -/
def State.loadFont (s : State) : Except LoadError State := s.loadBytes s.params.fontBase.toNat fontGlyphs

/-- `snapshot()`: the 2048 pixels in index order (R151). -/
def State.snapshot (s : State) : List Bool := (List.range 2048).map s.fb.pixel

/-- What `observe()` returns (R92). -/
structure Observation where
  dt : Byte
  st : Byte
  mode : Mode
  faultInfo : Option FaultInfo
deriving DecidableEq, Repr

/-- `observe()`: DT, ST, MODE, and FAULTINFO when MODE = FAULT (R92). -/
def State.observe (s : State) : Observation where
  dt := s.dt
  st := s.st
  mode := s.mode
  faultInfo := if s.mode = .fault then s.faultInfo else none

end Sys2Proof.Machine
end

