-- ==== Sys2Proof/Machine/Step.lean ====
section
/-! DEFINITION. The step: the host's part before a tick, then the tick (`40_cycle.md` R82, R93). -/

namespace Sys2Proof.Machine

/-- One step: the timer decrements that fall before the tick and the tick's inputs, then the tick. -/
def step (s : State) : Host.Outcome State Fault Refusal := s.beginTick.tick

/-- The state with the instruction whose bits are `w` stored where `step` fetches next. -/
def State.withFetchWord (s : State) (nbits w : Nat) : State := s.placeWord (tableWord nbits w)

end Sys2Proof.Machine
end

