-- ==== Sys2Proof/Safety.lean ====
section
/-!
DEFINITION. What the statements are about: a good state, the machine's invariant (`10_state.md` R28), steps, frames, and
the spec's tables of errors (R181) and register-file ports (R29).
-/

namespace Sys2Proof.Machine

/-- A good state: no fatal error has been raised (R186). -/
def State.good (s : State) : Bool := s.mode ≠ .fault

/-- The instruction that the bytes at PC decode to, if they can be fetched and are one. -/
def State.fetchedInstr (s : State) : Option Instr :=
  match s.fetchWord with
  | .ok w => decodeWord w
  | .error _ => none

/-- The machine's invariant (R28, R14, R22, R88): memory is canonical; MODE = FAULT exactly when FAULTINFO is not none;
PC is at most 0x10FE; every entry of the stack is a return address p + 2 with p at most 0xFFE; and in WAIT_KEY, PC holds
the address of the FX0A whose register WX names. -/
abbrev State.Inv (s : State) : Prop :=
  s.mem.wf = true ∧
  (s.mode = .fault ↔ s.faultInfo.isSome = true) ∧
  s.pc.toNat ≤ 0x10FE ∧
  (∀ j : Fin 16, j.val < s.sp.val → 2 ≤ (s.stk[j]).toNat ∧ (s.stk[j]).toNat ≤ 0x1000) ∧
  (s.mode = .waitKey → s.fetchedInstr = some (.ldVxK s.wx))

/-! ## Steps in a row, and the samples of a key wait -/

/-- `n` steps, up to the first that answers no next state. -/
def State.steps : State → Nat → Host.Outcome State Fault Refusal
  | s, 0 => .next s
  | s, n + 1 =>
    match step s with
    | .next t => t.steps n
    | stop => stop

/-- No sample has a key down that was up at the sample before it; `previous` comes before the first (R88). -/
def noNewKeys : Word → List Word → Prop
  | _, [] => True
  | previous, keys :: later =>
    (∀ k : Key, keys.getLsbD k.val = true → previous.getLsbD k.val = true) ∧ noNewKeys keys later

/-! ## Frames -/

/-- The pieces of the block's state other than V and PC. -/
inductive Part where
  | i
  | stack
  | dt
  | st
  | mem
  | fb
  | mode
  | keyWait
  | faultInfo
deriving DecidableEq, Repr

/-- The piece holds in `t` what it holds in `s`. -/
def Part.same (s t : State) : Part → Prop
  | .i => t.i = s.i
  | .stack => t.sp = s.sp ∧ t.stk = s.stk
  | .dt => t.dt = s.dt
  | .st => t.st = s.st
  | .mem => ∀ a, t.mem.read a = s.mem.read a
  | .fb => ∀ px py, t.fb.fbRead px py = s.fb.fbRead px py
  | .mode => t.mode = s.mode
  | .keyWait => t.wx = s.wx ∧ t.kprev = s.kprev
  | .faultInfo => t.faultInfo = s.faultInfo

/-- `t` differs from `s` at most in PC, in the tick's result, in the registers `regs` and in the pieces `parts`; the
parameters and the host's inputs are among what does not differ. -/
def ChangesOnly (regs : List Reg) (parts : List Part) (s t : State) : Prop :=
  (∀ r, r ∉ regs → t.reg r = s.reg r) ∧
  (∀ p, p ∉ parts → Part.same s t p) ∧
  t.params = s.params ∧ t.keys = s.keys ∧ t.rnd = s.rnd ∧ t.inputs = s.inputs ∧ t.draws = s.draws

/-- What R186 says a fatal error leaves: FAULTINFO, MODE and the tick's result written, all else as before. -/
def State.afterFatal (s : State) (kind : FatalKind) (payload : Nat) : State :=
  { s with faultInfo := some ⟨kind, payload⟩, mode := .fault, result := some (.fatal ⟨kind, payload⟩) }

/-! ## The spec's tables -/

/-- An access of `len` bytes from I up fails when its last byte is above 0xFFF, with payload max(I, 0x1000) (R181). -/
def State.accessError (s : State) (len : Nat) : Option FaultInfo :=
  if 1 ≤ len ∧ 0xFFF < s.i.toNat + len - 1 then some ⟨.outOfBoundsAccess, max s.i.toNat 0x1000⟩ else none

/-- The key number in a register fails when it is above 0x0F (R181). -/
def State.keyError (s : State) (x : Reg) : Option FaultInfo :=
  if 0x0F < (s.reg x).toNat then some ⟨.outOfBoundsAccess, (s.reg x).toNat⟩ else none

/-- The fatal error that an instruction raises in a state, from the tables of R180 to R183 and R188. -/
def State.errorOf (s : State) : Instr → Option FaultInfo
  | .ret => if s.sp.val = 0 then some ⟨.stackUnderflow, 0⟩ else none
  | .call _ => if s.sp.val = 16 then some ⟨.stackOverflow, 16⟩ else none
  | .drw _ _ n => s.accessError n.val
  | .skp x | .sknp x => s.keyError x
  | .ldB _ => s.accessError 3
  | .storeRegs x | .loadRegs x => s.accessError (x.val + 1)
  | .cls | .jp _ | .seImm _ _ | .sneImm _ _ | .seReg _ _ | .ldImm _ _ | .addImm _ _ | .ldReg _ _ | .orReg _ _
  | .andReg _ _ | .xorReg _ _ | .addReg _ _ | .subReg _ _ | .shr _ _ | .subnReg _ _ | .shl _ _ | .sneReg _ _
  | .ldI _ | .jpV0 _ | .rnd _ _ | .ldVxDt _ | .ldVxK _ | .ldDtVx _ | .ldStVx _ | .addI _ | .ldF _ => none

/-- The registers V[0]..V[x]. -/
def regsUpTo (x : Reg) : List Reg := (List.finRange 16).filter fun r => r ≤ x

/-- The registers that an instruction writes (R29); FX0A writes none on the tick that executes it (R163). -/
def instrWrites : Instr → List Reg
  | .ldImm x _ | .addImm x _ | .ldReg x _ | .orReg x _ | .andReg x _ | .xorReg x _ | .rnd x _ | .ldVxDt x => [x]
  | .addReg x _ | .subReg x _ | .subnReg x _ | .shr x _ | .shl x _ => [x, Reg.vf]
  | .drw _ _ _ => [Reg.vf]
  | .loadRegs x => regsUpTo x
  | .cls | .ret | .jp _ | .call _ | .seImm _ _ | .sneImm _ _ | .seReg _ _ | .sneReg _ _ | .ldI _ | .jpV0 _ | .skp _
  | .sknp _ | .ldVxK _ | .ldDtVx _ | .ldStVx _ | .addI _ | .ldF _ | .ldB _ | .storeRegs _ => []

/-- The registers that an instruction reads, with the SHIFT_SOURCE of the instance (R29). -/
def instrReads (source : ShiftSource) : Instr → List Reg
  | .seImm x _ | .sneImm x _ | .addImm x _ | .skp x | .sknp x | .ldDtVx x | .ldStVx x | .addI x | .ldF x | .ldB x => [x]
  | .seReg x y | .sneReg x y | .orReg x y | .andReg x y | .xorReg x y | .addReg x y | .subReg x y | .subnReg x y
  | .drw x y _ => [x, y]
  | .ldReg _ y => [y]
  | .shr x y | .shl x y => match source with
    | .vy => [y]
    | .vx => [x]
  | .jpV0 _ => [0]
  | .storeRegs x => regsUpTo x
  | .cls | .ret | .jp _ | .call _ | .ldImm _ _ | .ldI _ | .rnd _ _ | .ldVxDt _ | .ldVxK _ | .loadRegs _ => []

/-- The instructions that write VF as a flag (R12). -/
def instrWritesFlag : Instr → Bool
  | .addReg _ _ | .subReg _ _ | .shr _ _ | .subnReg _ _ | .shl _ _ | .drw _ _ _ => true
  | .cls | .ret | .jp _ | .call _ | .seImm _ _ | .sneImm _ _ | .seReg _ _ | .ldImm _ _ | .addImm _ _ | .ldReg _ _
  | .orReg _ _ | .andReg _ _ | .xorReg _ _ | .sneReg _ _ | .ldI _ | .jpV0 _ | .rnd _ _ | .skp _ | .sknp _ | .ldVxDt _
  | .ldVxK _ | .ldDtVx _ | .ldStVx _ | .addI _ | .ldF _ | .ldB _ | .storeRegs _ | .loadRegs _ => false

/-- Pixel (px, py) of the 64 by 32 display is one that DXYN toggles: some sprite row r and column offset c with a 1 bit
fall on it (R153, R154, R156). -/
def State.spriteCovers (s : State) (x y : Reg) (n : RowCount) (px py : Nat) : Prop :=
  ∃ r c : Nat, r < n.val ∧ c < 8 ∧ (s.mem.read (s.i.toNat + r)).getLsbD (7 - c) = true ∧
    px = ((s.reg x).toNat + c) % 64 ∧ py = ((s.reg y).toNat + r) % 32

end Sys2Proof.Machine
end

