-- ==== Sys2Proof/Certificates/Slice0/Obligations.lean ====
section
/-!
DEFINITION. The statements for the provers, from the spec's numbered rules. `ChangesOnly regs parts s t` is the frame: `t`
differs from `s` at most in PC, in the tick's result, and in what it names.
-/

open Sys2Proof Sys2Proof.Machine

/-! ## Reset and the host's operations -/

/-- R27, most of it the spec's own decision D4: the state after `reset`, for every setting of the parameters, and PC
with the default ORIGIN. -/
def Obligations.ResetStateIsTheTableOfR27 : Prop :=
  (∀ p : Params,
    (∀ r, (State.resetWith p).reg r = 0) ∧ (State.resetWith p).i = 0 ∧ (State.resetWith p).pc = p.origin ∧
    (State.resetWith p).sp = 0 ∧ (∀ j : Fin 16, (State.resetWith p).stk[j] = 0) ∧
    (State.resetWith p).dt = 0 ∧ (State.resetWith p).st = 0 ∧
    (∀ a, (State.resetWith p).mem.read a = 0) ∧ (∀ j, (State.resetWith p).fb.pixel j = false) ∧
    (State.resetWith p).mode = .running ∧ (State.resetWith p).wx = 0 ∧ (State.resetWith p).kprev = 0 ∧
    (State.resetWith p).faultInfo = none ∧ (State.resetWith p).params = p) ∧
  State.reset = State.resetWith Params.default ∧ State.reset.pc = 0x200

/-- R187, R210, the spec's own decisions D4 and D14: FAULT is left by `reset` and by nothing else that the host
applies. -/
def Obligations.FaultIsLeftOnlyByReset : Prop :=
  ∀ s : State, s.mode = .fault →
    (∀ t, step s = .next t → t.mode = .fault ∧ t.faultInfo = s.faultInfo) ∧
    s.decrementTimers.mode = .fault ∧
    (∀ a b t, s.loadWrite a b = .ok t → t.mode = .fault) ∧
    (∀ p, (s.hostReset p).mode = .running ∧ (s.hostReset p).faultInfo = none ∧ (s.hostReset p).pc = p.origin)

/-- R212, the spec's own decision D27: `load_write` before the first tick writes one byte that exists, and nothing
else; to an address above 0xFFF it writes nothing. After the first tick it is refused (the model's reading of R53 and
U28, log entry 15). -/
def Obligations.LoadWriteStoresOneByte : Prop :=
  ∀ (s : State) (a : Nat) (b : Byte), s.mem.wf = true →
    (s.result = none → a ≤ 0xFFF →
      ∃ t, s.loadWrite a b = .ok t ∧ t.mem.read a = b ∧ (∀ a', a' ≠ a → t.mem.read a' = s.mem.read a') ∧
        t.mem.wf = true ∧ t.pc = s.pc ∧ t.result = none ∧ ChangesOnly [] [.mem] s t) ∧
    (s.result = none → 0xFFF < a → s.loadWrite a b = .error (.outOfBoundsAccess a)) ∧
    (s.result ≠ none → s.loadWrite a b = .error .afterFirstTick)

/-- R213 with R212's load, the spec's own decision D27: a program of L bytes fits when ORIGIN + L ≤ 4096, and then
byte j stands at ORIGIN + j; a larger one is InvalidProgramLoad. -/
def Obligations.LoadProgramPutsBytesAtOrigin : Prop :=
  ∀ (p : Params) (bytes : List Byte),
    (p.origin.toNat + bytes.length ≤ 4096 →
      ∃ t, (State.resetWith p).loadProgram bytes = .ok t ∧
        (∀ (j : Nat) (h : j < bytes.length), t.mem.read (p.origin.toNat + j) = bytes[j]) ∧
        (∀ a, a < p.origin.toNat ∨ p.origin.toNat + bytes.length ≤ a → t.mem.read a = 0) ∧
        t.mem.wf = true ∧ t.pc = p.origin ∧ t.result = none ∧ ChangesOnly [] [.mem] (State.resetWith p) t) ∧
    (4096 < p.origin.toNat + bytes.length → (State.resetWith p).loadProgram bytes = .error .invalidProgramLoad)

/-- R192, in every MODE and any number of times by the spec's own decision D22: `decrement_timers` takes 1 from each
timer that is not 0, independently, and changes nothing else; applied n times it takes n, stopping at 0. -/
def Obligations.DecrementTimersStopsAtZero : Prop :=
  ∀ s : State,
    (s.decrementTimers.dt.toNat = if s.dt.toNat ≠ 0 then s.dt.toNat - 1 else s.dt.toNat) ∧
    (s.decrementTimers.st.toNat = if s.st.toNat ≠ 0 then s.st.toNat - 1 else s.st.toNat) ∧
    s.decrementTimers.pc = s.pc ∧ s.decrementTimers.result = s.result ∧
    ChangesOnly [] [.dt, .st] s s.decrementTimers ∧
    (∀ n, (State.decrementTimers^[n] s).dt.toNat = s.dt.toNat - n ∧
      (State.decrementTimers^[n] s).st.toNat = s.st.toNat - n)

/-- R150, R151, R92: `snapshot` is the 2048 pixels in index order, pixel (px, py) at py * 64 + px; `observe` is DT,
ST, MODE, and FAULTINFO in FAULT. -/
def Obligations.SnapshotIsRowMajorAndObserveIsTheTimersAndMode : Prop :=
  ∀ s : State,
    s.snapshot.length = 2048 ∧
    (∀ px py : Nat, px < 64 → py < 32 → s.snapshot[py * 64 + px]? = some (s.fb.fbRead px py)) ∧
    s.observe.dt = s.dt ∧ s.observe.st = s.st ∧ s.observe.mode = s.mode ∧
    (s.mode = .fault → s.observe.faultInfo = s.faultInfo) ∧ (s.mode ≠ .fault → s.observe.faultInfo = none)

/-! ## Encoding -/

/-- R71, the decoding back as the spec derives it: an instruction's word is its row's fixed bits with the operands in
their fields; its two bytes are the high one and the low one; decoding the word, or the bytes, gives the instruction
back with every operand. -/
def Obligations.EncodingIsR71AndDecodesBack : Prop :=
  ∀ i : Instr,
    encode i = placeFields i.row.bits i.fields ∧
    encodeBytes i = [(encode i).extractLsb' 8 8, (encode i).extractLsb' 0 8] ∧
    decodeWord (encode i) = some i ∧
    (∀ rest, decode (encodeBytes i ++ rest) = .ok (i, rest))

/-- The other direction: a word that decodes is the encoding of what it decodes to. -/
def Obligations.DecodedWordsAreTheirEncodings : Prop :=
  ∀ (w : Word) (i : Instr), decodeWord w = some i → encode i = w

/-- R64: no word matches two rows of the opcode map; a word decodes to an instruction of the row whose fixed bits it
has, and is Unknown when it has no row's. -/
def Obligations.DecodingFindsTheOneMatchingRow : Prop :=
  (∀ (w : Word) (r r' : OpRow), r ∈ opcodeRows → r' ∈ opcodeRows → r.selects w = true → r'.selects w = true →
    r = r') ∧
  (∀ (w : Word) (i : Instr), decodeWord w = some i → i.row ∈ opcodeRows ∧ i.row.selects w = true) ∧
  (∀ w : Word, decodeWord w = none ↔ ∀ r ∈ opcodeRows, r.selects w = false)

/-- Words of the spec's own examples decode to the instructions it says (sanity). -/
def Obligations.SpecExampleWordsDecode : Prop :=
  decodeWord 0x1ABC = some (.jp 0xABC) ∧ decodeWord 0x6069 = some (.ldImm 0 0x69) ∧
  decodeWord 0x71C0 = some (.addImm 1 0xC0) ∧ decodeWord 0x00EE = some .ret ∧
  decodeWord 0xD012 = some (.drw 0 1 2) ∧ decodeWord 0x820E = some (.shl 2 0) ∧
  decodeWord 0xF265 = some (.loadRegs 2) ∧ decodeWord 0xE79E = some (.skp 7) ∧
  decodeWord 0x5341 = none ∧ decodeWord 0x8128 = none ∧ decodeWord 0x0000 = none ∧ decodeWord 0xF034 = none

/-! ## Memory and fetch -/

/-- R41, R42: the two primitives succeed exactly on addresses 0x000 to 0xFFF; a write is read back and leaves every
other address alone; out of range both raise OutOfBoundsAccess(addr). That a write keeps the canonical form is about
the model's own form of memory (log entry 9). -/
def Obligations.MemReadAndMemWriteAreRangeChecked : Prop :=
  ∀ (m : Memory) (a : Nat) (b : Byte), m.wf = true →
    (a ≤ 0xFFF → m.memRead a = .ok (m.read a) ∧
      ∃ m', m.memWrite a b = .ok m' ∧ m'.memRead a = .ok b ∧ (∀ a', a' ≠ a → m'.memRead a' = m.memRead a') ∧
        m'.wf = true) ∧
    (0xFFF < a → m.memRead a = .error ⟨.outOfBoundsAccess, a⟩ ∧ m.memWrite a b = .error ⟨.outOfBoundsAccess, a⟩)

/-- Equal memories are equal data: two canonical memories with the same bytes are the same list. -/
def Obligations.CanonicalMemoriesWithEqualBytesAreEqual : Prop :=
  ∀ m m' : Memory, m.wf = true → m'.wf = true → (∀ a, a ≤ 0xFFF → m.read a = m'.read a) → m = m'

/-- R83: with PC at most 0xFFE, the byte at PC, the high one, and the byte at PC + 1; with PC = 0xFFF
OutOfBoundsAccess(0x1000), above it OutOfBoundsAccess(PC). That the error is then latched in a next state and only
FAULTINFO, MODE and the result change is R186, the spec's own decision D14 (log entries 8 and 19). -/
def Obligations.FetchIsBigEndianAndRangeChecked : Prop :=
  ∀ s : State,
    (s.pc.toNat ≤ 0xFFE →
      ∃ w, s.fetchWord = .ok w ∧
        w.toNat = 256 * (s.mem.read s.pc.toNat).toNat + (s.mem.read (s.pc.toNat + 1)).toNat) ∧
    (s.mode = .running → 0xFFF ≤ s.pc.toNat →
      s.tick = .next (s.afterFatal .outOfBoundsAccess (if s.pc.toNat = 0xFFF then 0x1000 else s.pc.toNat)))

/-! ## The step -/

/-- What the host's part of a step does (R81, R93, R192; the model's choice of log entries 2 and 3): the inputs are
the head of the queue, or the next free values when it is empty; the timers lose the decrements that fall before the
tick; nothing else of the block changes. -/
def Obligations.BeginTickLatchesInputsAndRunsTimersDown : Prop :=
  ∀ s : State,
    s.beginTick.dt.toNat = s.dt.toNat - s.nextInput.decrements ∧
    s.beginTick.st.toNat = s.st.toNat - s.nextInput.decrements ∧
    s.beginTick.keys = s.nextInput.keys ∧ s.beginTick.rnd = s.nextInput.rnd ∧
    (∀ input rest, s.inputs = input :: rest →
      s.nextInput = input ∧ s.beginTick.inputs = rest ∧ s.beginTick.draws = s.draws) ∧
    (s.inputs = [] →
      s.nextInput = ⟨Config.freeDecrements s.draws, Config.freeKeys s.draws, Config.freeRnd s.draws⟩ ∧
      s.beginTick.inputs = [] ∧ s.beginTick.draws = s.draws + 1) ∧
    s.beginTick.pc = s.pc ∧ s.beginTick.result = s.result ∧ s.beginTick.params = s.params ∧
    (∀ r, s.beginTick.reg r = s.reg r) ∧ s.beginTick.i = s.i ∧ s.beginTick.sp = s.sp ∧ s.beginTick.stk = s.stk ∧
    s.beginTick.mem = s.mem ∧ s.beginTick.fb = s.fb ∧ s.beginTick.mode = s.mode ∧ s.beginTick.wx = s.wx ∧
    s.beginTick.kprev = s.kprev ∧ s.beginTick.faultInfo = s.faultInfo

/-- R82 to R85: in RUNNING, when the two bytes at PC decode to a well-formed instruction, the step is that
instruction's meaning on the state with the tick's inputs. -/
def Obligations.StepRunsTheDecodedInstruction : Prop :=
  ∀ (s : State) (i : Instr) (rest : List Byte), s.mode = .running → s.pc.toNat ≤ 0xFFE →
    decode (s.mem.read s.pc.toNat :: s.mem.read (s.pc.toNat + 1) :: rest) = .ok (i, rest) →
    i.wellFormed = true ∧ step s = exec i s.beginTick

/-- R87, the spec's own decision D20: an Unknown word advances PC by 2, its tick's result is Unknown(pc_pre, w), and
nothing else of the state with the tick's inputs changes. -/
def Obligations.UnknownWordIsANoOpAdvance : Prop :=
  ∀ (s : State) (w : Word), s.mode = .running → s.fetchWord = .ok w → decodeWord w = none →
    step s = .next { s.beginTick with pc := s.pc + 2, result := some (.unknown s.pc w) }

/-- R89, the spec's own decision D14: a tick in FAULT changes nothing (the host's timer decrements and inputs apart)
and reports the latched error. -/
def Obligations.FaultTickRepeatsTheLatchedError : Prop :=
  ∀ (s : State) (e : FaultInfo), s.mode = .fault → s.faultInfo = some e →
    step s = .next { s.beginTick with result := some (.fatal e) }

/-- R88, the spec's own decision D12: a tick in WAIT_KEY. If some key is down that was up at the previous sample, the
least such k goes to V[WX], PC advances by 2, MODE is RUNNING and the result Ok; otherwise KPREV takes the sample and
the result is AwaitingKey. -/
def Obligations.WaitTickCompletesOnTheLeastNewKey : Prop :=
  ∀ s : State, s.mode = .waitKey →
    ((∃ k : Key, s.keys.getLsbD k.val = true ∧ s.kprev.getLsbD k.val = false) →
      ∃ (k : Key) (t : State), s.tick = .next t ∧
        s.keys.getLsbD k.val = true ∧ s.kprev.getLsbD k.val = false ∧
        (∀ j : Key, j < k → ¬(s.keys.getLsbD j.val = true ∧ s.kprev.getLsbD j.val = false)) ∧
        (t.reg s.wx).toNat = k.val ∧ t.pc = s.pc + 2 ∧ t.mode = .running ∧ t.result = some .ok ∧
        ChangesOnly [s.wx] [.mode] s t) ∧
    ((∀ k : Key, s.keys.getLsbD k.val = true → s.kprev.getLsbD k.val = true) →
      s.tick = .next { s with kprev := s.keys, result := some .awaitingKey })

/-- Only a state that R28 rules out, FAULT with no latched error, has no next state (log entry 7). -/
def Obligations.StepStopsOnlyWithoutALatchedError : Prop :=
  ∀ s : State, (∃ t, step s = .next t) ↔ ¬(s.mode = .fault ∧ s.faultInfo = none)

/-- R85, R186: every instruction answers a next state in every state, no fault and no refusal. That a fatal error is a
next state in FAULT and no fault of the model is the model's reading of R186 (log entry 8). -/
def Obligations.EveryInstructionAnswersANextState : Prop :=
  ∀ (i : Instr) (s : State), ∃ t, exec i s = .next t

/-! ## Whole-machine rules -/

/-- R28, which the spec derives, at reset: the invariant holds after `reset` with legal parameters and any canonical
launch memory. -/
def Obligations.InvariantHoldsAtResetAndLaunch : Prop :=
  State.reset.Inv ∧
  (∀ (p : Params) (m : Memory), p.legal = true → m.wf = true → (State.launch p m).Inv) ∧
  (∀ (s : State) (p : Params), p.legal = true → (s.hostReset p).Inv)

/-- R28, which the spec derives: every step keeps the invariant, from every state that has it. -/
def Obligations.StepKeepsTheInvariant : Prop :=
  ∀ s t : State, s.Inv → step s = .next t → t.Inv

/-- R28, which the spec derives, for the host's other operations. -/
def Obligations.HostOperationsKeepTheInvariant : Prop :=
  ∀ s : State, s.Inv →
    s.decrementTimers.Inv ∧
    (∀ a b t, s.mode = .running → s.loadWrite a b = .ok t → t.Inv)

/-- R21, the spec's own decisions D12 and D14: RUNNING goes to WAIT_KEY by FX0A only; WAIT_KEY goes to RUNNING when a
newly pressed key is seen, else stays, and never goes to FAULT; FAULT stays; and reset gives RUNNING. RUNNING goes to FAULT only with the error of the fetch or
of the fetched instruction. -/
def Obligations.ModeTransitionsAreThoseOfR21 : Prop :=
  (∀ s t : State, step s = .next t →
    (s.mode = .running → t.mode = .waitKey → ∃ x, s.fetchedInstr = some (.ldVxK x)) ∧
    (s.mode = .running → t.mode = .fault →
      ∃ e, t.faultInfo = some e ∧
        (s.fetchWord = .error e ∨ ∃ i, s.fetchedInstr = some i ∧ s.beginTick.errorOf i = some e)) ∧
    (s.mode = .waitKey →
      (t.mode = .running ∧
        ∃ k : Key, s.beginTick.keys.getLsbD k.val = true ∧ s.kprev.getLsbD k.val = false) ∨
      (t.mode = .waitKey ∧
        ∀ k : Key, s.beginTick.keys.getLsbD k.val = true → s.kprev.getLsbD k.val = true)) ∧
    (s.mode = .fault → t.mode = .fault)) ∧
  (∀ p, (State.resetWith p).mode = .running)

/-- R55, R167, R182, R183, R186, the spec's own decisions D11 and D14: an instruction raises exactly the error of the
spec's tables, and then no write of it takes effect: only FAULTINFO, MODE and the result change. Otherwise it raises
none: FAULTINFO stays and MODE is RUNNING or, for FX0A, WAIT_KEY. -/
def Obligations.FatalErrorsAreExactAndPrecise : Prop :=
  ∀ (i : Instr) (s : State), s.mode = .running →
    (∀ e, s.errorOf i = some e → exec i s = .next (s.afterFatal e.kind e.payload)) ∧
    (s.errorOf i = none → ∃ t, exec i s = .next t ∧ t.faultInfo = s.faultInfo ∧
      (((¬∃ x, i = .ldVxK x) ∧ t.mode = .running) ∨ ((∃ x, i = .ldVxK x) ∧ t.mode = .waitKey)))

/-- R29: an instruction that raises no error leaves every register it does not write as it was. -/
def Obligations.RegistersAreWrittenOnlyByTheirPorts : Prop :=
  ∀ (i : Instr) (s t : State), exec i s = .next t → ∀ r, r ∉ instrWrites i → t.reg r = s.reg r

/-- R29: an instruction learns nothing from a register it does not read: two states that differ only in registers it
does not read go the same way, up to the registers it does not write. -/
def Obligations.RegistersAreReadOnlyByTheirPorts : Prop :=
  ∀ (i : Instr) (s : State) (v : Vector Byte 16),
    (∀ r ∈ instrReads s.params.shiftSource i, v[r] = s.v[r]) →
    ∀ t, exec i s = .next t →
      ∃ u, exec i { s with v := v } = .next u ∧ u = { t with v := u.v } ∧
        (s.errorOf i = none → ∀ r ∈ instrWrites i, u.v[r] = t.v[r])

/-- R12: an instruction that is not one of the six writes VF only as a destination; and one of the six that raises no
error leaves 0x00 or 0x01 in it. -/
def Obligations.VfIsWrittenAsAFlagByTheSixOnly : Prop :=
  ∀ (i : Instr) (s t : State), exec i s = .next t →
    (instrWritesFlag i = false → Reg.vf ∉ instrWrites i → t.reg Reg.vf = s.reg Reg.vf) ∧
    (instrWritesFlag i = true → s.errorOf i = none → t.reg Reg.vf = 0x00 ∨ t.reg Reg.vf = 0x01)

/-- R13, R15 to R19, R22, R23: which instructions write I, the stack, the timers, MEM, FB and the key-wait latches. -/
def Obligations.EachPieceOfStateHasItsOwnWriters : Prop :=
  ∀ (i : Instr) (s t : State), exec i s = .next t →
    (t.i ≠ s.i → (∃ a, i = .ldI a) ∨ (∃ x, i = .addI x) ∨ (∃ x, i = .ldF x) ∨
      (s.params.loadStoreIInc = true ∧ ((∃ x, i = .storeRegs x) ∨ ∃ x, i = .loadRegs x))) ∧
    (t.sp ≠ s.sp ∨ t.stk ≠ s.stk → i = .ret ∨ ∃ a, i = .call a) ∧
    (t.dt ≠ s.dt → ∃ x, i = .ldDtVx x) ∧
    (t.st ≠ s.st → ∃ x, i = .ldStVx x) ∧
    (t.mem ≠ s.mem → (∃ x, i = .ldB x) ∨ ∃ x, i = .storeRegs x) ∧
    (t.fb ≠ s.fb → i = .cls ∨ ∃ x y n, i = .drw x y n) ∧
    (t.wx ≠ s.wx ∨ t.kprev ≠ s.kprev → ∃ x, i = .ldVxK x) ∧
    (t.params = s.params ∧ t.keys = s.keys ∧ t.rnd = s.rnd ∧ t.inputs = s.inputs ∧ t.draws = s.draws)

/-- R94, which the spec derives: a jump to itself is a fixed point: the step leaves the state with the tick's inputs
as it is, with result Ok. -/
def Obligations.SelfJumpIsAFixedPoint : Prop :=
  ∀ (s : State) (nnn : Nnn), s.mode = .running → s.fetchedInstr = some (.jp nnn) → s.pc = nnn.setWidth 16 →
    step s = .next { s.beginTick with result := some .ok }

/-! ## Control transfer -/

/-- R100, R183: RET, the word 0x00EE, with SP not 0 takes PC from the newest entry; with SP = 0 it raises
StackUnderflow(0). That the error is precise and latched is the spec's own decision D14 (log entries 8 and 19); that the
entries at and above SP stay is the model's choice (log entry 13). -/
def Obligations.RetPopsIntoPc : Prop :=
  encode .ret = 0x00EE ∧
  ∀ s : State,
    ((h : s.sp.val ≠ 0) →
      ∃ t, exec .ret s = .next t ∧ t.pc = s.stk[s.sp.val - 1]'(by omega) ∧ t.sp.val = s.sp.val - 1 ∧
        t.stk = s.stk ∧ t.result = some .ok ∧ ChangesOnly [] [.stack] s t) ∧
    (s.sp.val = 0 → exec .ret s = .next (s.afterFatal .stackUnderflow 0))

/-- R101: JP nnn, the word 0x1000 | nnn, puts its target in PC and changes nothing else. -/
def Obligations.JumpSetsPcExactly : Prop :=
  ∀ (nnn : Nnn) (s : State),
    encode (.jp nnn) = 0x1000 ||| nnn.setWidth 16 ∧
    ∃ t, exec (.jp nnn) s = .next t ∧ t.pc.toNat = nnn.toNat ∧ t.result = some .ok ∧ ChangesOnly [] [] s t

/-- R103, the spec's own decision D29: JP V0, nnn puts the unreduced sum of nnn and V[0] in PC and changes nothing
else. -/
def Obligations.IndexedJumpAddsV0Unreduced : Prop :=
  ∀ (nnn : Nnn) (s : State),
    ∃ t, exec (.jpV0 nnn) s = .next t ∧ t.pc.toNat = nnn.toNat + (s.reg 0).toNat ∧ t.result = some .ok ∧
      ChangesOnly [] [] s t

/-- R102, R182: CALL nnn, the word 0x2000 | nnn, with SP not 16 pushes the address after the call; with SP = 16 it
raises StackOverflow(16). That the error is precise and latched is the spec's own decision D14 (log entries 8 and 19);
that the entries above the pushed one stay is the model's choice (log entry 13). -/
def Obligations.CallPushesTheReturnAddress : Prop :=
  ∀ (nnn : Nnn) (s : State),
    encode (.call nnn) = 0x2000 ||| nnn.setWidth 16 ∧
    ((h : s.sp.val ≠ 16) →
      ∃ t, exec (.call nnn) s = .next t ∧ t.pc.toNat = nnn.toNat ∧ t.sp.val = s.sp.val + 1 ∧
        t.stk[s.sp.val]'(by omega) = s.pc + 2 ∧ (∀ j : Fin 16, j.val ≠ s.sp.val → t.stk[j] = s.stk[j]) ∧
        t.result = some .ok ∧ ChangesOnly [] [.stack] s t) ∧
    (s.sp.val = 16 → exec (.call nnn) s = .next (s.afterFatal .stackOverflow 16))

/-- R100: "executing 2NNN then, at NNN, executing 00EE restores PC to original_pc + 2" and the stack depth. -/
def Obligations.CallThenRetComesBack : Prop :=
  ∀ (nnn : Nnn) (s : State), s.sp.val ≠ 16 →
    ∃ t u, exec (.call nnn) s = .next t ∧ exec .ret t = .next u ∧ u.pc = s.pc + 2 ∧ u.sp = s.sp ∧
      (∀ j : Fin 16, j.val < s.sp.val → u.stk[j] = s.stk[j]) ∧ ChangesOnly [] [.stack] s u

/-! ## Skips -/

/-- R110 to R113: the four register skips and their words: PC + 4 when the condition holds, PC + 2 when not, nothing
else. -/
def Obligations.RegisterSkipsAdvanceByFourOrTwo : Prop :=
  ∀ (x y : Reg) (nn : Byte) (s : State),
    encode (.seImm x nn) = 0x3000 ||| (nibbleOf x).setWidth 16 <<< 8 ||| nn.setWidth 16 ∧
    encode (.sneImm x nn) = 0x4000 ||| (nibbleOf x).setWidth 16 <<< 8 ||| nn.setWidth 16 ∧
    encode (.seReg x y) = 0x5000 ||| (nibbleOf x).setWidth 16 <<< 8 ||| (nibbleOf y).setWidth 16 <<< 4 ∧
    encode (.sneReg x y) = 0x9000 ||| (nibbleOf x).setWidth 16 <<< 8 ||| (nibbleOf y).setWidth 16 <<< 4 ∧
    (∃ t, exec (.seImm x nn) s = .next t ∧ t.pc = (if s.reg x = nn then s.pc + 4 else s.pc + 2) ∧
      t.result = some .ok ∧ ChangesOnly [] [] s t) ∧
    (∃ t, exec (.sneImm x nn) s = .next t ∧ t.pc = (if s.reg x = nn then s.pc + 2 else s.pc + 4) ∧
      t.result = some .ok ∧ ChangesOnly [] [] s t) ∧
    (∃ t, exec (.seReg x y) s = .next t ∧ t.pc = (if s.reg x = s.reg y then s.pc + 4 else s.pc + 2) ∧
      t.result = some .ok ∧ ChangesOnly [] [] s t) ∧
    (∃ t, exec (.sneReg x y) s = .next t ∧ t.pc = (if s.reg x = s.reg y then s.pc + 2 else s.pc + 4) ∧
      t.result = some .ok ∧ ChangesOnly [] [] s t)

/-! ## Register and index loads -/

/-- R120, R121: LD Vx, nn and ADD Vx, nn (modulo 256, no flag), and their words. -/
def Obligations.ImmediateLoadAndAdd : Prop :=
  ∀ (x : Reg) (nn : Byte) (s : State),
    encode (.ldImm x nn) = 0x6000 ||| (nibbleOf x).setWidth 16 <<< 8 ||| nn.setWidth 16 ∧
    encode (.addImm x nn) = 0x7000 ||| (nibbleOf x).setWidth 16 <<< 8 ||| nn.setWidth 16 ∧
    (∃ t, exec (.ldImm x nn) s = .next t ∧ t.reg x = nn ∧ t.pc = s.pc + 2 ∧ t.result = some .ok ∧
      ChangesOnly [x] [] s t) ∧
    (∃ t, exec (.addImm x nn) s = .next t ∧ (t.reg x).toNat = ((s.reg x).toNat + nn.toNat) % 256 ∧ t.pc = s.pc + 2 ∧
      t.result = some .ok ∧ ChangesOnly [x] [] s t)

/-- R122: LD I, nnn, the word 0xA000 | nnn; the upper four bits of I become 0. -/
def Obligations.IndexLoadZeroExtends : Prop :=
  ∀ (nnn : Nnn) (s : State),
    encode (.ldI nnn) = 0xA000 ||| nnn.setWidth 16 ∧
    ∃ t, exec (.ldI nnn) s = .next t ∧ t.i.toNat = nnn.toNat ∧ t.pc = s.pc + 2 ∧ t.result = some .ok ∧
      ChangesOnly [] [.i] s t

/-- R123, the spec's own decision D17: ADD I, Vx is modulo 2^16 and sets no flag. -/
def Obligations.IndexAddWrapsAtSixteenBits : Prop :=
  ∀ (x : Reg) (s : State),
    ∃ t, exec (.addI x) s = .next t ∧ t.i.toNat = (s.i.toNat + (s.reg x).toNat) % 2 ^ 16 ∧ t.pc = s.pc + 2 ∧
      t.result = some .ok ∧ ChangesOnly [] [.i] s t

/-- R124, the spec's own decision D10: RND for every random byte of the tick; every result r has r & ~nn = 0. -/
def Obligations.RandomLoadIsMasked : Prop :=
  ∀ (x : Reg) (nn : Byte) (s : State),
    ∃ t, exec (.rnd x nn) s = .next t ∧ t.reg x = s.rnd &&& nn ∧ t.reg x &&& ~~~nn = 0 ∧ t.pc = s.pc + 2 ∧
      t.result = some .ok ∧ ChangesOnly [x] [] s t

/-! ## ALU -/

/-- R131 to R134: the move and the three logic operations, and their words; VF changes only as the destination. -/
def Obligations.MoveAndLogicLeaveVfAlone : Prop :=
  ∀ (x y : Reg) (s : State),
    encode (.ldReg x y) = 0x8000 ||| (nibbleOf x).setWidth 16 <<< 8 ||| (nibbleOf y).setWidth 16 <<< 4 ∧
    encode (.orReg x y) = 0x8001 ||| (nibbleOf x).setWidth 16 <<< 8 ||| (nibbleOf y).setWidth 16 <<< 4 ∧
    encode (.andReg x y) = 0x8002 ||| (nibbleOf x).setWidth 16 <<< 8 ||| (nibbleOf y).setWidth 16 <<< 4 ∧
    encode (.xorReg x y) = 0x8003 ||| (nibbleOf x).setWidth 16 <<< 8 ||| (nibbleOf y).setWidth 16 <<< 4 ∧
    (∃ t, exec (.ldReg x y) s = .next t ∧ t.reg x = s.reg y ∧ t.pc = s.pc + 2 ∧ t.result = some .ok ∧
      ChangesOnly [x] [] s t) ∧
    (∃ t, exec (.orReg x y) s = .next t ∧ (∀ b, (t.reg x).getLsbD b = ((s.reg x).getLsbD b || (s.reg y).getLsbD b)) ∧
      t.pc = s.pc + 2 ∧ t.result = some .ok ∧ ChangesOnly [x] [] s t) ∧
    (∃ t, exec (.andReg x y) s = .next t ∧ (∀ b, (t.reg x).getLsbD b = ((s.reg x).getLsbD b && (s.reg y).getLsbD b)) ∧
      t.pc = s.pc + 2 ∧ t.result = some .ok ∧ ChangesOnly [x] [] s t) ∧
    (∃ t, exec (.xorReg x y) s = .next t ∧
      (∀ b, (t.reg x).getLsbD b = Bool.xor ((s.reg x).getLsbD b) ((s.reg y).getLsbD b)) ∧
      t.pc = s.pc + 2 ∧ t.result = some .ok ∧ ChangesOnly [x] [] s t)

/-- R135 with R130, the spec's own decision D7: ADD Vx, Vy; when x is VF the flag is what VF holds. -/
def Obligations.AddWritesSumThenCarry : Prop :=
  ∀ (x y : Reg) (s : State),
    ∃ t, exec (.addReg x y) s = .next t ∧
      (x ≠ Reg.vf → (t.reg x).toNat = ((s.reg x).toNat + (s.reg y).toNat) % 256) ∧
      (t.reg Reg.vf).toNat = (if 255 < (s.reg x).toNat + (s.reg y).toNat then 1 else 0) ∧
      t.pc = s.pc + 2 ∧ t.result = some .ok ∧ ChangesOnly [x, Reg.vf] [] s t

/-- R136, R138 with R130, the spec's own decision D7: SUB and SUBN; the flag is "no borrow". -/
def Obligations.SubtractionsWriteDifferenceThenNoBorrow : Prop :=
  ∀ (x y : Reg) (s : State),
    (∃ t, exec (.subReg x y) s = .next t ∧
      (x ≠ Reg.vf → ((t.reg x).toNat : Int) = ((s.reg x).toNat - (s.reg y).toNat : Int) % 256) ∧
      (t.reg Reg.vf).toNat = (if (s.reg y).toNat ≤ (s.reg x).toNat then 1 else 0) ∧
      t.pc = s.pc + 2 ∧ t.result = some .ok ∧ ChangesOnly [x, Reg.vf] [] s t) ∧
    (∃ t, exec (.subnReg x y) s = .next t ∧
      (x ≠ Reg.vf → ((t.reg x).toNat : Int) = ((s.reg y).toNat - (s.reg x).toNat : Int) % 256) ∧
      (t.reg Reg.vf).toNat = (if (s.reg x).toNat ≤ (s.reg y).toNat then 1 else 0) ∧
      t.pc = s.pc + 2 ∧ t.result = some .ok ∧ ChangesOnly [x, Reg.vf] [] s t)

/-- R137, R139 with R130, the spec's own decisions D5 and D7: SHR and SHL shift V[y], or V[x] with SHIFT_SOURCE = VX;
the flag is the operand's bit before the shift. -/
def Obligations.ShiftsWriteResultThenEvictedBit : Prop :=
  ∀ (x y : Reg) (s : State) (operand : Byte),
    operand = (if s.params.shiftSource = .vy then s.reg y else s.reg x) →
    (∃ t, exec (.shr x y) s = .next t ∧ (x ≠ Reg.vf → (t.reg x).toNat = operand.toNat / 2) ∧
      (t.reg Reg.vf).toNat = operand.toNat % 2 ∧
      t.pc = s.pc + 2 ∧ t.result = some .ok ∧ ChangesOnly [x, Reg.vf] [] s t) ∧
    (∃ t, exec (.shl x y) s = .next t ∧ (x ≠ Reg.vf → (t.reg x).toNat = operand.toNat * 2 % 256) ∧
      (t.reg Reg.vf).toNat = operand.toNat / 128 ∧
      t.pc = s.pc + 2 ∧ t.result = some .ok ∧ ChangesOnly [x, Reg.vf] [] s t)

/-! ## Display -/

/-- R152: CLS, the word 0x00E0, makes every pixel dark. -/
def Obligations.ClearDarkensEveryPixel : Prop :=
  encode .cls = 0x00E0 ∧
  ∀ s : State,
    ∃ t, exec .cls s = .next t ∧ (∀ px py, t.fb.fbRead px py = false) ∧ t.pc = s.pc + 2 ∧ t.result = some .ok ∧
      ChangesOnly [] [.fb] s t

/-- R153 to R156, the spec's own decisions D8, D9 and D14: DRW with its sprite in memory toggles exactly the pixels
that the sprite covers, and VF is 1 exactly when one of them was lit; with a sprite byte above 0xFFF it raises
OutOfBoundsAccess(max(I, 0x1000)). -/
def Obligations.DrawTogglesTheSpritesPixels : Prop :=
  ∀ (x y : Reg) (n : RowCount) (s : State),
    (n.val = 0 ∨ s.i.toNat + n.val - 1 ≤ 0xFFF →
      ∃ t, exec (.drw x y n) s = .next t ∧
        (∀ px py, px < 64 → py < 32 →
          (s.spriteCovers x y n px py → t.fb.fbRead px py = !s.fb.fbRead px py) ∧
          (¬s.spriteCovers x y n px py → t.fb.fbRead px py = s.fb.fbRead px py)) ∧
        ((∃ px py, s.spriteCovers x y n px py ∧ s.fb.fbRead px py = true) → t.reg Reg.vf = 0x01) ∧
        ((¬∃ px py, s.spriteCovers x y n px py ∧ s.fb.fbRead px py = true) → t.reg Reg.vf = 0x00) ∧
        t.pc = s.pc + 2 ∧ t.result = some .ok ∧ ChangesOnly [Reg.vf] [.fb] s t) ∧
    (1 ≤ n.val → 0xFFF < s.i.toNat + n.val - 1 →
      exec (.drw x y n) s = .next (s.afterFatal .outOfBoundsAccess (max s.i.toNat 0x1000)))

/-- R153, C9, the clause about VF as the spec derives it: the identical sprite drawn twice at the identical place
restores every pixel; the second draw's VF is 1 exactly when the first draw lit some pixel. The place is identical when
the registers are as before the first draw, for every x and y; or just so, when neither x nor y is VF, which the first
draw writes. -/
def Obligations.DrawingTwiceRestoresTheDisplay : Prop :=
  ∀ (x y : Reg) (n : RowCount) (s : State), n.val = 0 ∨ s.i.toNat + n.val - 1 ≤ 0xFFF →
    ∃ t, exec (.drw x y n) s = .next t ∧
      (∀ v : Vector Byte 16, v = s.v ∨ (v = t.v ∧ x ≠ Reg.vf ∧ y ≠ Reg.vf) →
        ∃ u, exec (.drw x y n) { t with v := v } = .next u ∧ u.fb = s.fb ∧
          (u.reg Reg.vf = 0x01 ↔ ∃ px py, s.fb.fbRead px py = false ∧ t.fb.fbRead px py = true) ∧
          (u.reg Reg.vf = 0x01 ∨ u.reg Reg.vf = 0x00))

/-! ## Keys and timers -/

/-- R161, R162, R167, the spec's own decision D11: SKP and SKNP with V[x] at most 0x0F test the key of that number at
this tick; with a larger V[x] they raise OutOfBoundsAccess(V[x]). -/
def Obligations.KeySkipsTestTheSelectedKey : Prop :=
  ∀ (x : Reg) (s : State),
    ((s.reg x).toNat ≤ 0x0F →
      (∃ t, exec (.skp x) s = .next t ∧
        t.pc = (if s.keys.getLsbD (s.reg x).toNat = true then s.pc + 4 else s.pc + 2) ∧
        t.result = some .ok ∧ ChangesOnly [] [] s t) ∧
      (∃ t, exec (.sknp x) s = .next t ∧
        t.pc = (if s.keys.getLsbD (s.reg x).toNat = true then s.pc + 2 else s.pc + 4) ∧
        t.result = some .ok ∧ ChangesOnly [] [] s t)) ∧
    (0x0F < (s.reg x).toNat →
      exec (.skp x) s = .next (s.afterFatal .outOfBoundsAccess (s.reg x).toNat) ∧
      exec (.sknp x) s = .next (s.afterFatal .outOfBoundsAccess (s.reg x).toNat))

/-- R163, the spec's own decision D12: the tick that fetches FX0A latches WX and KPREV, enters WAIT_KEY and holds PC.
-/
def Obligations.KeyWaitBeginsByHoldingPc : Prop :=
  ∀ (x : Reg) (s : State),
    ∃ t, exec (.ldVxK x) s = .next t ∧ t.wx = x ∧ t.kprev = s.keys ∧ t.mode = .waitKey ∧ t.pc = s.pc ∧
      t.result = some .awaitingKey ∧ ChangesOnly [] [.keyWait, .mode] s t

/-- R163 with R88, the spec's own decision D12: FX0A as a whole, over a wait of any length. As long as no sample has a
key down that was up at the sample before, the first sample being that of the tick that begins the wait, the steps hold
PC, write no register and stay in WAIT_KEY; the first step whose sample has such a key writes the least one to V[x] and
ends the wait. -/
def Obligations.KeyWaitEndsOnANewlyPressedKey : Prop :=
  ∀ (x : Reg) (s t : State) (waits rest : List TickInput), exec (.ldVxK x) s = .next t → s.inputs = waits ++ rest →
    noNewKeys s.keys (waits.map TickInput.keys) →
    ∃ u, t.steps waits.length = .next u ∧ u.mode = .waitKey ∧ u.wx = x ∧ u.pc = s.pc ∧ u.inputs = rest ∧
      u.kprev = (waits.map TickInput.keys).getLastD s.keys ∧ u.result = some .awaitingKey ∧
      (∀ r, u.reg r = s.reg r) ∧ (∀ p, p ∉ [Part.dt, Part.st, Part.mode, Part.keyWait] → Part.same s u p) ∧
      (∀ (input : TickInput) (rest' : List TickInput) (k : Key), rest = input :: rest' →
        input.keys.getLsbD k.val = true → u.kprev.getLsbD k.val = false →
        (∀ j : Key, j < k → input.keys.getLsbD j.val = true → u.kprev.getLsbD j.val = true) →
        ∃ v, step u = .next v ∧ (v.reg x).toNat = k.val ∧ v.pc = s.pc + 2 ∧ v.mode = .running ∧
          v.result = some .ok ∧ v.inputs = rest' ∧ (∀ r, r ≠ x → v.reg r = s.reg r) ∧
          (∀ p, p ∉ [Part.dt, Part.st, Part.mode, Part.keyWait] → Part.same s v p))

/-- R164, R165, R166, the spec's own decision D18: the timer accesses. -/
def Obligations.TimerAccessesMoveOneByte : Prop :=
  ∀ (x : Reg) (s : State),
    (∃ t, exec (.ldVxDt x) s = .next t ∧ t.reg x = s.dt ∧ t.pc = s.pc + 2 ∧ t.result = some .ok ∧
      ChangesOnly [x] [] s t) ∧
    (∃ t, exec (.ldDtVx x) s = .next t ∧ t.dt = s.reg x ∧ t.pc = s.pc + 2 ∧ t.result = some .ok ∧
      ChangesOnly [] [.dt] s t) ∧
    (∃ t, exec (.ldStVx x) s = .next t ∧ t.st = s.reg x ∧ t.pc = s.pc + 2 ∧ t.result = some .ok ∧
      ChangesOnly [] [.st] s t)

/-! ## Memory operations -/

/-- R170, the spec's own decision D13: LD F points I at FONT_BASE + 5 * V[x]; with a legal FONT_BASE the sum is exact.
-/
def Obligations.FontAddressIsFiveBytesPerDigit : Prop :=
  ∀ (x : Reg) (s : State), s.params.fontBase.toNat ≤ 0xFFFF - 1275 →
    ∃ t, exec (.ldF x) s = .next t ∧ t.i.toNat = s.params.fontBase.toNat + 5 * (s.reg x).toNat ∧ t.pc = s.pc + 2 ∧
      t.result = some .ok ∧ ChangesOnly [] [.i] s t

/-- R172, the spec's own decisions D14 and D19: LD B with I + 2 at most 0xFFF stores hundreds, tens and ones at I, I +
1, I + 2 and nothing anywhere else; with a larger I it raises OutOfBoundsAccess(max(I, 0x1000)). -/
def Obligations.BcdStoresThreeDigits : Prop :=
  ∀ (x : Reg) (s : State), s.mem.wf = true →
    (s.i.toNat + 2 ≤ 0xFFF →
      ∃ t, exec (.ldB x) s = .next t ∧
        (t.mem.read s.baseAddr).toNat = (s.reg x).toNat / 100 ∧
        (t.mem.read (s.baseAddr + 1)).toNat = (s.reg x).toNat / 10 % 10 ∧
        (t.mem.read (s.baseAddr + 2)).toNat = (s.reg x).toNat % 10 ∧
        (∀ a, a < s.baseAddr ∨ s.baseAddr + 3 ≤ a → t.mem.read a = s.mem.read a) ∧
        t.pc = s.pc + 2 ∧ t.result = some .ok ∧ ChangesOnly [] [.mem] s t) ∧
    (0xFFF < s.i.toNat + 2 → exec (.ldB x) s = .next (s.afterFatal .outOfBoundsAccess (max s.i.toNat 0x1000)))

/-- R173, the spec's own decisions D6 and D14: LD [I], Vx with I + x at most 0xFFF stores V[0]..V[x] from I up and
nothing anywhere else; I as the parameter says. With a larger I it raises OutOfBoundsAccess(max(I, 0x1000)). -/
def Obligations.StoreRegistersWritesTheRange : Prop :=
  ∀ (x : Reg) (s : State), s.mem.wf = true →
    (s.i.toNat + x.val ≤ 0xFFF →
      ∃ t, exec (.storeRegs x) s = .next t ∧
        (∀ r : Reg, r ≤ x → t.mem.read (s.baseAddr + r.val) = s.reg r) ∧
        (∀ a, a < s.baseAddr ∨ s.baseAddr + x.val + 1 ≤ a → t.mem.read a = s.mem.read a) ∧
        t.i.toNat = (if s.params.loadStoreIInc = true then (s.i.toNat + x.val + 1) % 2 ^ 16 else s.i.toNat) ∧
        t.pc = s.pc + 2 ∧ t.result = some .ok ∧ ChangesOnly [] [.mem, .i] s t) ∧
    (0xFFF < s.i.toNat + x.val →
      exec (.storeRegs x) s = .next (s.afterFatal .outOfBoundsAccess (max s.i.toNat 0x1000)))

/-- R174, the spec's own decisions D6 and D14: LD Vx, [I] with I + x at most 0xFFF loads V[0]..V[x] from I up; I as
the parameter says. With a larger I it raises OutOfBoundsAccess(max(I, 0x1000)). -/
def Obligations.LoadRegistersReadsTheRange : Prop :=
  ∀ (x : Reg) (s : State),
    (s.i.toNat + x.val ≤ 0xFFF →
      ∃ t, exec (.loadRegs x) s = .next t ∧
        (∀ r : Reg, r ≤ x → t.reg r = s.mem.read (s.baseAddr + r.val)) ∧
        (∀ r : Reg, x < r → t.reg r = s.reg r) ∧
        t.i.toNat = (if s.params.loadStoreIInc = true then (s.i.toNat + x.val + 1) % 2 ^ 16 else s.i.toNat) ∧
        t.pc = s.pc + 2 ∧ t.result = some .ok ∧ ChangesOnly (regsUpTo x) [.i] s t) ∧
    (0xFFF < s.i.toNat + x.val →
      exec (.loadRegs x) s = .next (s.afterFatal .outOfBoundsAccess (max s.i.toNat 0x1000)))

/-- R174, as the spec states it of FX55 and FX65: FX55 followed by FX65 with the same x and the same I restores
V[0]..V[x], whatever the registers held in between. -/
def Obligations.StoreThenLoadRestoresTheRegisters : Prop :=
  ∀ (x : Reg) (s : State) (v : Vector Byte 16), s.mem.wf = true → s.i.toNat + x.val ≤ 0xFFF →
    ∃ t u, exec (.storeRegs x) s = .next t ∧ exec (.loadRegs x) { t with v := v, i := s.i } = .next u ∧
      (∀ r : Reg, r ≤ x → u.reg r = s.reg r) ∧ (∀ r : Reg, x < r → u.reg r = v[r]) ∧ u.mem = t.mem

/-- R52, which the spec derives: what FX55 and FX33 store at the two bytes of the next instruction is what the fetch of
the very next tick reads there, whichever of the two bytes they store to; a byte that they do not store to is read as
it was. -/
def Obligations.StoresAreSeenByTheNextFetch : Prop :=
  ∀ (x : Reg) (s : State), s.mem.wf = true → (s.pc + 2).toNat ≤ 0xFFE →
    (s.i.toNat + x.val ≤ 0xFFF →
      ∃ t w, exec (.storeRegs x) s = .next t ∧ t.beginTick.fetchWord = .ok w ∧
        (∀ r : Reg, r ≤ x → s.baseAddr + r.val = (s.pc + 2).toNat → highByte w = s.reg r) ∧
        (∀ r : Reg, r ≤ x → s.baseAddr + r.val = (s.pc + 2).toNat + 1 → lowByte w = s.reg r) ∧
        ((s.pc + 2).toNat < s.baseAddr ∨ s.baseAddr + x.val + 1 ≤ (s.pc + 2).toNat →
          highByte w = s.mem.read (s.pc + 2).toNat) ∧
        ((s.pc + 2).toNat + 1 < s.baseAddr ∨ s.baseAddr + x.val + 1 ≤ (s.pc + 2).toNat + 1 →
          lowByte w = s.mem.read ((s.pc + 2).toNat + 1))) ∧
    (s.i.toNat + 2 ≤ 0xFFF →
      ∃ t w, exec (.ldB x) s = .next t ∧ t.beginTick.fetchWord = .ok w ∧
        (∀ j : Fin 3, s.baseAddr + j.val = (s.pc + 2).toNat →
          (highByte w).toNat = (s.reg x).toNat / 10 ^ (2 - j.val) % 10) ∧
        (∀ j : Fin 3, s.baseAddr + j.val = (s.pc + 2).toNat + 1 →
          (lowByte w).toNat = (s.reg x).toNat / 10 ^ (2 - j.val) % 10) ∧
        ((s.pc + 2).toNat < s.baseAddr ∨ s.baseAddr + 3 ≤ (s.pc + 2).toNat →
          highByte w = s.mem.read (s.pc + 2).toNat) ∧
        ((s.pc + 2).toNat + 1 < s.baseAddr ∨ s.baseAddr + 3 ≤ (s.pc + 2).toNat + 1 →
          lowByte w = s.mem.read ((s.pc + 2).toNat + 1)))
end

