-- ==== Sys2Proof/Laws/Decode.lean ====
section
/-! SUPPORT. The fields of the words that the encoder's formats build, and of any word. -/

namespace Sys2Proof

@[simp] theorem index_nibbleOf (r : Fin 16) : (nibbleOf r).index = r := rfl

@[simp] theorem nibbleOf_index (b : Nibble) : nibbleOf b.index = b := rfl

@[simp] theorem fieldOp_formatNNN (op : Nibble) (nnn : Nnn) : fieldOp (formatNNN op nnn) = op := by
  ext i hi; simp [fieldOp, formatNNN, hi]; grind

@[simp] theorem fieldNnn_formatNNN (op : Nibble) (nnn : Nnn) : fieldNnn (formatNNN op nnn) = nnn := by
  ext i hi; simp [fieldNnn, formatNNN, hi]; grind

@[simp] theorem fieldOp_formatXNN (op : Nibble) (x : Reg) (nn : Byte) : fieldOp (formatXNN op x nn) = op := by
  ext i hi; simp [fieldOp, formatXNN, hi]; grind

@[simp] theorem fieldX_formatXNN (op : Nibble) (x : Reg) (nn : Byte) : fieldX (formatXNN op x nn) = nibbleOf x := by
  ext i hi; simp [fieldX, formatXNN, hi]; grind

@[simp] theorem fieldNn_formatXNN (op : Nibble) (x : Reg) (nn : Byte) : fieldNn (formatXNN op x nn) = nn := by
  ext i hi; simp [fieldNn, formatXNN, hi]; grind

@[simp] theorem fieldOp_formatXYN (op : Nibble) (x y : Reg) (n : Nibble) : fieldOp (formatXYN op x y n) = op := by
  ext i hi; simp [fieldOp, formatXYN, hi]; grind

@[simp] theorem fieldX_formatXYN (op : Nibble) (x y : Reg) (n : Nibble) :
    fieldX (formatXYN op x y n) = nibbleOf x := by
  ext i hi; simp [fieldX, formatXYN, hi]; grind

@[simp] theorem fieldY_formatXYN (op : Nibble) (x y : Reg) (n : Nibble) :
    fieldY (formatXYN op x y n) = nibbleOf y := by
  ext i hi; simp [fieldY, formatXYN, hi]; grind

@[simp] theorem fieldN_formatXYN (op : Nibble) (x y : Reg) (n : Nibble) : fieldN (formatXYN op x y n) = n := by
  ext i hi; simp [fieldN, formatXYN, hi]; grind

/-- A word is the NNN format of its own fields. -/
theorem formatNNN_fields (w : Word) : formatNNN (fieldOp w) (fieldNnn w) = w := by
  ext i hi; simp [fieldOp, fieldNnn, formatNNN, hi]; grind

/-- A word is the XNN format of its own fields. -/
theorem formatXNN_fields (w : Word) : formatXNN (fieldOp w) (fieldX w).index (fieldNn w) = w := by
  ext i hi; simp [fieldOp, fieldX, fieldNn, formatXNN, hi]; grind

/-- A word is the XYN format of its own fields. -/
theorem formatXYN_fields (w : Word) :
    formatXYN (fieldOp w) (fieldX w).index (fieldY w).index (fieldN w) = w := by
  ext i hi; simp [fieldOp, fieldX, fieldY, fieldN, formatXYN, hi]; grind

/-- A word is its two bytes, the high one first (R44, R71). -/
@[simp] theorem wordOfBytes_bytes (w : Word) : wordOfBytes (highByte w) (lowByte w) = w := by
  ext i hi; simp [wordOfBytes, highByte, lowByte, hi]; grind

@[simp] theorem highByte_wordOfBytes (h l : Byte) : highByte (wordOfBytes h l) = h := by
  ext i hi; simp [highByte, wordOfBytes, hi]; grind

@[simp] theorem lowByte_wordOfBytes (h l : Byte) : lowByte (wordOfBytes h l) = l := by
  ext i hi; simp [lowByte, wordOfBytes, hi]; grind

/-- `wordOfBytes` is concatenation (R44). -/
theorem wordOfBytes_eq_append (h l : Byte) : wordOfBytes h l = h ++ l := by
  ext i hi
  have hl := @BitVec.getElem_append 8 8 i h l hi
  simp [wordOfBytes, hl]
  grind

/-- The number a word is: 256 times its high byte plus its low byte (R44). -/
theorem toNat_wordOfBytes (h l : Byte) : (wordOfBytes h l).toNat = 256 * h.toNat + l.toNat := by
  have : (h ++ l : BitVec (8 + 8)).toNat = h.toNat <<< 8 ||| l.toNat := BitVec.toNat_append h l
  rw [wordOfBytes_eq_append, this, ← Nat.shiftLeft_add_eq_or_of_lt l.isLt, Nat.shiftLeft_eq]
  omega

/-- Decoding two bytes is decoding their word. -/
theorem decode_pair (h l : Byte) (rest : List Byte) :
    decode (h :: l :: rest) = match decodeWord (wordOfBytes h l) with
      | some i => .ok (i, rest)
      | none => .error (.unknownWord (wordOfBytes h l)) := rfl

end Sys2Proof
end

