-- ==== Sys2Proof/Laws/Display.lean ====
section
/-! SUPPORT. The laws of the frame buffer: what a pixel reads as after a toggle, a clear and a whole sprite. -/

namespace Sys2Proof.Machine

/-- A pixel read depends on its coordinates modulo 64 and 32 only (R156). -/
theorem FrameBuffer.fbRead_mod (fb : FrameBuffer) (px py : Nat) :
    fb.fbRead (px % 64) (py % 32) = fb.fbRead px py := by
  simp [FrameBuffer.fbRead]

@[simp] theorem FrameBuffer.fbRead_clear (px py : Nat) : FrameBuffer.clear.fbRead px py = false := by
  simp [FrameBuffer.fbRead, FrameBuffer.clear]

/-- A toggle changes the one pixel whose reduced coordinates are the toggled ones (R151, R156). -/
theorem FrameBuffer.fbRead_fbXor (fb : FrameBuffer) (px py qx qy : Nat) :
    (fb.fbXor px py).fbRead qx qy =
      (fb.fbRead qx qy ^^ decide (qx % 64 = px % 64 ∧ qy % 32 = py % 32)) := by
  simp only [FrameBuffer.fbRead, FrameBuffer.fbXor, Vector.getElem_set]
  by_cases hy : py % 32 = qy % 32
  · have hp : px % 64 < 64 := Nat.mod_lt _ (by decide)
    simp [hy, BitVec.getLsbD_xor, BitVec.getLsbD_twoPow, hp, eq_comm]
  · have hy' : ¬ qy % 32 = py % 32 := fun e => hy e.symm
    simp [hy, hy']

/-- A row-major pixel index is its column and its row (R150). -/
theorem FrameBuffer.pixel_rowMajor (fb : FrameBuffer) {px py : Nat} (hx : px < 64) :
    fb.pixel (py * 64 + px) = fb.fbRead px py := by
  have h1 : (py * 64 + px) % 64 = px := by omega
  have h2 : (py * 64 + px) / 64 = py := by omega
  simp only [FrameBuffer.pixel, h1, h2]

/-- The reduced coordinates of a pixel (R156). -/
def reducePixel (p : Nat × Nat) : Nat × Nat := (p.1 % 64, p.2 % 32)

theorem drawPixels_foldl (fb : FrameBuffer) (acc : Bool) (pixels : List (Nat × Nat))
    (hnd : (pixels.map reducePixel).Nodup) :
    (∀ qx qy, (pixels.foldl drawPixel (fb, acc)).1.fbRead qx qy =
      (fb.fbRead qx qy ^^ decide ((qx % 64, qy % 32) ∈ pixels.map reducePixel))) ∧
    (pixels.foldl drawPixel (fb, acc)).2 = (acc || pixels.any fun p => fb.fbRead p.1 p.2) := by
  induction pixels generalizing fb acc with
  | nil => simp
  | cons p ps ih =>
    rw [List.map_cons, List.nodup_cons] at hnd
    obtain ⟨h1, h2⟩ := ih (fb.fbXor p.1 p.2) (acc || fb.fbRead p.1 p.2) hnd.2
    refine ⟨fun qx qy => ?_, ?_⟩
    · rw [List.foldl_cons, drawPixel, h1, FrameBuffer.fbRead_fbXor]
      simp only [List.map_cons, List.mem_cons]
      by_cases hq : (qx % 64, qy % 32) = reducePixel p
      · have hn : (qx % 64, qy % 32) ∉ ps.map reducePixel := hq ▸ hnd.1
        have hq' : qx % 64 = p.1 % 64 ∧ qy % 32 = p.2 % 32 := by
          simpa [reducePixel, Prod.ext_iff] using hq
        rw [decide_eq_true hq', decide_eq_true (Or.inl hq), decide_eq_false hn, Bool.xor_false]
      · have hq' : ¬(qx % 64 = p.1 % 64 ∧ qy % 32 = p.2 % 32) := by
          simpa [reducePixel, Prod.ext_iff] using hq
        simp only [hq', hq, false_or, decide_false, Bool.xor_false]
    · rw [List.foldl_cons, drawPixel, h2, List.any_cons, Bool.or_assoc]
      congr 2
      rw [Bool.eq_iff_iff, List.any_eq_true, List.any_eq_true]
      refine exists_congr fun q => and_congr_right fun hq => ?_
      rw [FrameBuffer.fbRead_fbXor]
      have : ¬(q.1 % 64 = p.1 % 64 ∧ q.2 % 32 = p.2 % 32) := fun e => hnd.1 <| by
        have : reducePixel q = reducePixel p := by simp [reducePixel, e.1, e.2]
        exact this ▸ List.mem_map_of_mem hq
      simp [this]

/-- The sprite written at once (R155): with no pixel addressed twice, each addressed pixel is toggled, the others stay,
and the flag says whether an addressed pixel was lit. -/
theorem drawPixels_spec (fb : FrameBuffer) (pixels : List (Nat × Nat)) (hnd : (pixels.map reducePixel).Nodup) :
    (∀ qx qy, (drawPixels fb pixels).1.fbRead qx qy =
      (fb.fbRead qx qy ^^ decide ((qx % 64, qy % 32) ∈ pixels.map reducePixel))) ∧
    (drawPixels fb pixels).2 = pixels.any fun p => fb.fbRead p.1 p.2 := by
  have h := drawPixels_foldl fb false pixels hnd
  rw [Bool.false_or] at h
  exact h

theorem mem_litColumns {row : Byte} {c : Nat} : c ∈ litColumns row ↔ c < 8 ∧ row.getLsbD (7 - c) = true := by
  simp [litColumns]

/-- The pixels of a sprite, by row and column offset (R153). -/
theorem mem_spritePixels {x0 y : Nat} {rows : List Byte} {p : Nat × Nat} :
    p ∈ spritePixels x0 y rows ↔ ∃ (r : Nat) (h : r < rows.length) (c : Nat),
      c < 8 ∧ rows[r].getLsbD (7 - c) = true ∧ p = (x0 + c, y + r) := by
  induction rows generalizing y with
  | nil => simp [spritePixels]
  | cons row rows ih =>
    simp only [spritePixels, List.mem_append, List.mem_map, mem_litColumns, ih]
    constructor
    · rintro (⟨c, ⟨hc, hb⟩, rfl⟩ | ⟨r, hr, c, hc, hb, rfl⟩)
      · exact ⟨0, by simp, c, hc, hb, rfl⟩
      · exact ⟨r + 1, by simpa using hr, c, hc, hb, by rw [Nat.add_right_comm, ← Nat.add_assoc]⟩
    · rintro ⟨r, hr, c, hc, hb, rfl⟩
      cases r with
      | zero => exact .inl ⟨c, ⟨hc, hb⟩, rfl⟩
      | succ r =>
        exact .inr ⟨r, by simpa using hr, c, hc, hb, by rw [Nat.add_right_comm, Nat.add_assoc y r 1]⟩

/-- No pixel of the display is addressed twice by a sprite of at most 32 rows (R155). -/
theorem nodup_spritePixels {x0 y : Nat} {rows : List Byte} (h : rows.length ≤ 32) :
    ((spritePixels x0 y rows).map reducePixel).Nodup := by
  induction rows generalizing y with
  | nil => simp [spritePixels]
  | cons row rows ih =>
    have hlen : (row :: rows).length = rows.length + 1 := rfl
    rw [hlen] at h
    rw [spritePixels, List.map_append, List.nodup_append]
    refine ⟨?_, ih (by omega), ?_⟩
    · rw [List.map_map]
      refine List.Nodup.map_on ?_ (List.Nodup.filter _ List.nodup_range)
      intro a ha b hb hab
      have ha' := (mem_litColumns.mp ha).1
      have hb' := (mem_litColumns.mp hb).1
      have : (x0 + a) % 64 = (x0 + b) % 64 := (Prod.ext_iff.mp hab).1
      omega
    · intro p hp q hq e
      obtain ⟨p', hp', rfl⟩ := List.mem_map.mp hp
      obtain ⟨c, _, rfl⟩ := List.mem_map.mp hp'
      obtain ⟨q', hq', rfl⟩ := List.mem_map.mp hq
      obtain ⟨r, hr, c', _, _, rfl⟩ := mem_spritePixels.mp hq'
      have : y % 32 = (y + 1 + r) % 32 := (Prod.ext_iff.mp e).2
      omega

@[simp] theorem State.length_spriteRows (s : State) (n : RowCount) : (s.spriteRows n).length = n.val := by
  simp [State.spriteRows]

@[simp] theorem State.getElem_spriteRows (s : State) (n : RowCount) (r : Nat) (h : r < (s.spriteRows n).length) :
    (s.spriteRows n)[r] = s.mem.read (s.i.toNat + r) := by
  simp [State.spriteRows, State.baseAddr]

end Sys2Proof.Machine
end

