-- ==== Sys2Proof/Laws/Memory.lean ====
section
/-!
SUPPORT. The laws of memory: what a read gives after a write, that every operation keeps the canonical form, and that
canonical memories with the same bytes are equal.
-/

namespace Sys2Proof.Machine

/-! ## The canonical form -/

theorem Memory.wfFrom_cons {least k : Nat} {b : Byte} {rest : Memory} :
    Memory.wfFrom least ((k, b) :: rest) = true ↔
      least ≤ k ∧ k < Config.memSize ∧ b ≠ Memory.unlisted ∧ Memory.wfFrom (k + 1) rest = true := by
  simp [Memory.wfFrom, and_assoc]

theorem Memory.wfFrom_mono {least least' : Nat} {m : Memory} (h : least' ≤ least)
    (hm : Memory.wfFrom least m = true) : Memory.wfFrom least' m = true := by
  cases m with
  | nil => rfl
  | cons p rest =>
    obtain ⟨k, b⟩ := p
    rw [Memory.wfFrom_cons] at hm ⊢
    exact ⟨h.trans hm.1, hm.2⟩

/-- An address below the first listed one is unlisted. -/
theorem Memory.read_below {least a : Nat} {m : Memory} (hm : Memory.wfFrom least m = true) (h : a < least) :
    m.read a = Memory.unlisted := by
  induction m generalizing least with
  | nil => rfl
  | cons p rest ih =>
    obtain ⟨k, b⟩ := p
    rw [Memory.wfFrom_cons] at hm
    have hk : k ≠ a := by omega
    simp only [Memory.read, if_neg hk]
    exact ih hm.2.2.2 (by omega)

/-- An address that does not exist holds nothing in a canonical memory. -/
theorem Memory.read_outside {least a : Nat} {m : Memory} (hm : Memory.wfFrom least m = true)
    (h : Config.memSize ≤ a) : m.read a = Memory.unlisted := by
  induction m generalizing least with
  | nil => rfl
  | cons p rest ih =>
    obtain ⟨k, b⟩ := p
    rw [Memory.wfFrom_cons] at hm
    have hk : k ≠ a := by omega
    simp only [Memory.read, if_neg hk]
    exact ih hm.2.2.2

/-! ## One byte written -/

theorem Memory.read_putFront_ne {a a' : Nat} {b : Byte} {m : Memory} (h : a' ≠ a) :
    (Memory.putFront a b m).read a' = m.read a' := by
  unfold Memory.putFront
  split
  · rfl
  · simp [Memory.read, h.symm]

theorem Memory.read_putFront_same {a : Nat} {b : Byte} {m : Memory}
    (hm : Memory.wfFrom (a + 1) m = true) : (Memory.putFront a b m).read a = b := by
  unfold Memory.putFront
  split
  · rename_i hb
    rw [Memory.read_below hm (by omega), hb]
  · simp [Memory.read]

theorem Memory.wfFrom_putFront {least a : Nat} {b : Byte} {m : Memory} (hm : Memory.wfFrom (a + 1) m = true)
    (hl : least ≤ a) (ha : a < Config.memSize) : Memory.wfFrom least (Memory.putFront a b m) = true := by
  unfold Memory.putFront
  split
  · exact Memory.wfFrom_mono (by omega) hm
  · exact Memory.wfFrom_cons.mpr ⟨hl, ha, ‹_›, hm⟩

/-- A write leaves every other address alone (R42). -/
theorem Memory.read_write_ne {a a' : Nat} {b : Byte} {m : Memory} (h : a' ≠ a) :
    (m.write a b).read a' = m.read a' := by
  induction m with
  | nil => exact Memory.read_putFront_ne h
  | cons p rest ih =>
    obtain ⟨k, c⟩ := p
    simp only [Memory.write]
    split
    · exact Memory.read_putFront_ne h
    · split
      · rename_i hk
        rw [Memory.read_putFront_ne h]
        simp [Memory.read, ← hk, h.symm]
      · simp [Memory.read, ih]

/-- A read after a write to the same address gives the value written (R42). -/
theorem Memory.read_write_same {least a : Nat} {b : Byte} {m : Memory} (hm : Memory.wfFrom least m = true) :
    (m.write a b).read a = b := by
  induction m generalizing least with
  | nil => exact Memory.read_putFront_same rfl
  | cons p rest ih =>
    obtain ⟨k, c⟩ := p
    have hm' := Memory.wfFrom_cons.mp hm
    simp only [Memory.write]
    split
    · exact Memory.read_putFront_same (Memory.wfFrom_cons.mpr ⟨by omega, hm'.2⟩)
    · split
      · rename_i hk
        exact Memory.read_putFront_same (hk ▸ hm'.2.2.2)
      · rename_i hk
        simp only [Memory.read, if_neg (Ne.symm hk)]
        exact ih hm'.2.2.2

/-- A write at an address that exists keeps the canonical form. -/
theorem Memory.wfFrom_write {least a : Nat} {b : Byte} {m : Memory} (hm : Memory.wfFrom least m = true)
    (hl : least ≤ a) (ha : a < Config.memSize) : Memory.wfFrom least (m.write a b) = true := by
  induction m generalizing least with
  | nil => exact Memory.wfFrom_putFront rfl hl ha
  | cons p rest ih =>
    obtain ⟨k, c⟩ := p
    have hm' := Memory.wfFrom_cons.mp hm
    simp only [Memory.write]
    split
    · exact Memory.wfFrom_putFront (Memory.wfFrom_cons.mpr ⟨by omega, hm'.2⟩) hl ha
    · split
      · rename_i hk
        exact Memory.wfFrom_putFront (hk ▸ hm'.2.2.2) hl ha
      · exact Memory.wfFrom_cons.mpr ⟨hm'.1, hm'.2.1, hm'.2.2.1, ih hm'.2.2.2 (by omega)⟩

theorem Memory.wf_write {a : Nat} {b : Byte} {m : Memory} (hm : m.wf = true) (ha : a < Config.memSize) :
    (m.write a b).wf = true :=
  Memory.wfFrom_write hm (Nat.zero_le a) ha

/-- One byte of memory after a write. -/
theorem Memory.read_write {a a' : Nat} {b : Byte} {m : Memory} (hm : m.wf = true) :
    (m.write a b).read a' = if a' = a then b else m.read a' := by
  split
  · rename_i h
    rw [h]
    exact Memory.read_write_same hm
  · exact Memory.read_write_ne ‹_›

/-! ## Several bytes stored -/

@[simp] theorem Memory.storeBytes_nil (m : Memory) (base : Nat) : m.storeBytes base [] = m := rfl

@[simp] theorem Memory.storeBytes_cons (m : Memory) (base : Nat) (b : Byte) (bs : List Byte) :
    m.storeBytes base (b :: bs) = (m.write base b).storeBytes (base + 1) bs := rfl

/-- A store leaves every address outside it alone. -/
theorem Memory.read_storeBytes_outside {m : Memory} {base a : Nat} {bs : List Byte}
    (h : a < base ∨ base + bs.length ≤ a) : (m.storeBytes base bs).read a = m.read a := by
  induction bs generalizing m base with
  | nil => rfl
  | cons b bs ih =>
    have hlen : (b :: bs).length = bs.length + 1 := rfl
    rw [hlen] at h
    rw [Memory.storeBytes_cons, ih (by omega), Memory.read_write_ne (by omega)]

theorem Memory.wf_storeBytes {m : Memory} {base : Nat} {bs : List Byte} (hm : m.wf = true)
    (h : base + bs.length ≤ Config.memSize) : (m.storeBytes base bs).wf = true := by
  induction bs generalizing m base with
  | nil => exact hm
  | cons b bs ih =>
    have hlen : (b :: bs).length = bs.length + 1 := rfl
    rw [hlen] at h
    exact ih (Memory.wf_write hm (by omega)) (by omega)

/-- A store puts each byte at its own address. -/
theorem Memory.read_storeBytes_inside {m : Memory} {base j : Nat} {bs : List Byte} (hm : m.wf = true)
    (h : base + bs.length ≤ Config.memSize) (hj : j < bs.length) :
    (m.storeBytes base bs).read (base + j) = bs[j] := by
  induction bs generalizing m base j with
  | nil => exact absurd hj (Nat.not_lt_zero j)
  | cons b bs ih =>
    have hlen : (b :: bs).length = bs.length + 1 := rfl
    rw [hlen] at h hj
    have hw : (m.write base b).wf = true := Memory.wf_write hm (by omega)
    rw [Memory.storeBytes_cons]
    cases j with
    | zero =>
      rw [Memory.read_storeBytes_outside (by omega)]
      exact Memory.read_write_same hm
    | succ j =>
      have := ih hw (base := base + 1) (by omega) (by omega : j < bs.length)
      rw [show base + (j + 1) = base + 1 + j by omega, this]
      rfl

/-! ## Equality of canonical memories -/

/-- Canonical memories that hold the same bytes are equal. -/
theorem Memory.eq_of_read_eq {least : Nat} {m m' : Memory} (hm : Memory.wfFrom least m = true)
    (hm' : Memory.wfFrom least m' = true) (h : ∀ a, m.read a = m'.read a) : m = m' := by
  induction m generalizing least m' with
  | nil =>
    cases m' with
    | nil => rfl
    | cons p rest =>
      obtain ⟨k, b⟩ := p
      have hb := (Memory.wfFrom_cons.mp hm').2.2.1
      have := h k
      simp only [Memory.read, if_true] at this
      exact absurd this.symm hb
  | cons p rest ih =>
    obtain ⟨k, b⟩ := p
    have h1 := Memory.wfFrom_cons.mp hm
    cases m' with
    | nil =>
      have := h k
      simp only [Memory.read, if_true] at this
      exact absurd this h1.2.2.1
    | cons p' rest' =>
      obtain ⟨k', b'⟩ := p'
      have h2 := Memory.wfFrom_cons.mp hm'
      have hk : k = k' := by
        rcases lt_trichotomy k k' with hlt | heq | hgt
        · have := h k
          rw [Memory.read_below (m := (k', b') :: rest') (least := k')
            (Memory.wfFrom_cons.mpr ⟨le_refl _, h2.2⟩) hlt] at this
          simp only [Memory.read, if_true] at this
          exact absurd this h1.2.2.1
        · exact heq
        · have := h k'
          rw [Memory.read_below (m := (k, b) :: rest) (least := k)
            (Memory.wfFrom_cons.mpr ⟨le_refl _, h1.2⟩) hgt] at this
          simp only [Memory.read, if_true] at this
          exact absurd this.symm h2.2.2.1
      subst hk
      have hb : b = b' := by
        have := h k
        simpa only [Memory.read, if_true] using this
      subst hb
      have hrest : rest = rest' := by
        refine ih h1.2.2.2 h2.2.2.2 fun a => ?_
        by_cases hka : k = a
        · subst hka
          rw [Memory.read_below h1.2.2.2 (by omega), Memory.read_below h2.2.2.2 (by omega)]
        · have := h a
          simpa only [Memory.read, if_neg hka] using this
      rw [hrest]

/-! ## The range-checked primitives -/

theorem Memory.memRead_ok {m : Memory} {a : Nat} (h : a < Config.memSize) : m.memRead a = .ok (m.read a) := if_pos h

theorem Memory.memRead_error {m : Memory} {a : Nat} (h : Config.memSize ≤ a) :
    m.memRead a = .error (outOfBounds a) := if_neg (by omega)

theorem Memory.memWrite_ok {m : Memory} {a : Nat} {b : Byte} (h : a < Config.memSize) :
    m.memWrite a b = .ok (m.write a b) := if_pos h

theorem Memory.memWrite_error {m : Memory} {a : Nat} {b : Byte} (h : Config.memSize ≤ a) :
    m.memWrite a b = .error (outOfBounds a) := if_neg (by omega)

end Sys2Proof.Machine
end

