-- ==== Sys2Proof/Laws/State.lean ====
section
/-!
SUPPORT. What each named update of the state leaves in each field, so that no later proof unfolds an update.
-/

namespace Sys2Proof.Machine

variable (s : State)

/-! ## `writeReg` -/

@[simp] theorem State.writeReg_params (r : Reg) (b : Byte) : (s.writeReg r b).params = s.params := rfl
@[simp] theorem State.writeReg_v (r : Reg) (b : Byte) : (s.writeReg r b).v = s.v.set r b := rfl
@[simp] theorem State.writeReg_i (r : Reg) (b : Byte) : (s.writeReg r b).i = s.i := rfl
@[simp] theorem State.writeReg_pc (r : Reg) (b : Byte) : (s.writeReg r b).pc = s.pc := rfl
@[simp] theorem State.writeReg_sp (r : Reg) (b : Byte) : (s.writeReg r b).sp = s.sp := rfl
@[simp] theorem State.writeReg_stk (r : Reg) (b : Byte) : (s.writeReg r b).stk = s.stk := rfl
@[simp] theorem State.writeReg_dt (r : Reg) (b : Byte) : (s.writeReg r b).dt = s.dt := rfl
@[simp] theorem State.writeReg_st (r : Reg) (b : Byte) : (s.writeReg r b).st = s.st := rfl
@[simp] theorem State.writeReg_mem (r : Reg) (b : Byte) : (s.writeReg r b).mem = s.mem := rfl
@[simp] theorem State.writeReg_fb (r : Reg) (b : Byte) : (s.writeReg r b).fb = s.fb := rfl
@[simp] theorem State.writeReg_mode (r : Reg) (b : Byte) : (s.writeReg r b).mode = s.mode := rfl
@[simp] theorem State.writeReg_wx (r : Reg) (b : Byte) : (s.writeReg r b).wx = s.wx := rfl
@[simp] theorem State.writeReg_kprev (r : Reg) (b : Byte) : (s.writeReg r b).kprev = s.kprev := rfl
@[simp] theorem State.writeReg_faultInfo (r : Reg) (b : Byte) : (s.writeReg r b).faultInfo = s.faultInfo := rfl
@[simp] theorem State.writeReg_keys (r : Reg) (b : Byte) : (s.writeReg r b).keys = s.keys := rfl
@[simp] theorem State.writeReg_rnd (r : Reg) (b : Byte) : (s.writeReg r b).rnd = s.rnd := rfl
@[simp] theorem State.writeReg_inputs (r : Reg) (b : Byte) : (s.writeReg r b).inputs = s.inputs := rfl
@[simp] theorem State.writeReg_draws (r : Reg) (b : Byte) : (s.writeReg r b).draws = s.draws := rfl
@[simp] theorem State.writeReg_result (r : Reg) (b : Byte) : (s.writeReg r b).result = s.result := rfl

/-! ## `writeResultFlag` -/

@[simp] theorem State.writeResultFlag_params (r : Reg) (a b : Byte) : (s.writeResultFlag r a b).params = s.params := rfl
@[simp] theorem State.writeResultFlag_i (r : Reg) (a b : Byte) : (s.writeResultFlag r a b).i = s.i := rfl
@[simp] theorem State.writeResultFlag_pc (r : Reg) (a b : Byte) : (s.writeResultFlag r a b).pc = s.pc := rfl
@[simp] theorem State.writeResultFlag_sp (r : Reg) (a b : Byte) : (s.writeResultFlag r a b).sp = s.sp := rfl
@[simp] theorem State.writeResultFlag_stk (r : Reg) (a b : Byte) : (s.writeResultFlag r a b).stk = s.stk := rfl
@[simp] theorem State.writeResultFlag_dt (r : Reg) (a b : Byte) : (s.writeResultFlag r a b).dt = s.dt := rfl
@[simp] theorem State.writeResultFlag_st (r : Reg) (a b : Byte) : (s.writeResultFlag r a b).st = s.st := rfl
@[simp] theorem State.writeResultFlag_mem (r : Reg) (a b : Byte) : (s.writeResultFlag r a b).mem = s.mem := rfl
@[simp] theorem State.writeResultFlag_fb (r : Reg) (a b : Byte) : (s.writeResultFlag r a b).fb = s.fb := rfl
@[simp] theorem State.writeResultFlag_mode (r : Reg) (a b : Byte) : (s.writeResultFlag r a b).mode = s.mode := rfl
@[simp] theorem State.writeResultFlag_wx (r : Reg) (a b : Byte) : (s.writeResultFlag r a b).wx = s.wx := rfl
@[simp] theorem State.writeResultFlag_kprev (r : Reg) (a b : Byte) : (s.writeResultFlag r a b).kprev = s.kprev := rfl
@[simp] theorem State.writeResultFlag_faultInfo (r : Reg) (a b : Byte) : (s.writeResultFlag r a b).faultInfo = s.faultInfo := rfl
@[simp] theorem State.writeResultFlag_keys (r : Reg) (a b : Byte) : (s.writeResultFlag r a b).keys = s.keys := rfl
@[simp] theorem State.writeResultFlag_rnd (r : Reg) (a b : Byte) : (s.writeResultFlag r a b).rnd = s.rnd := rfl
@[simp] theorem State.writeResultFlag_inputs (r : Reg) (a b : Byte) : (s.writeResultFlag r a b).inputs = s.inputs := rfl
@[simp] theorem State.writeResultFlag_draws (r : Reg) (a b : Byte) : (s.writeResultFlag r a b).draws = s.draws := rfl
@[simp] theorem State.writeResultFlag_result (r : Reg) (a b : Byte) : (s.writeResultFlag r a b).result = s.result := rfl

/-! ## `setI` -/

@[simp] theorem State.setI_params (a : Word) : (s.setI a).params = s.params := rfl
@[simp] theorem State.setI_v (a : Word) : (s.setI a).v = s.v := rfl
@[simp] theorem State.setI_i (a : Word) : (s.setI a).i = a := rfl
@[simp] theorem State.setI_pc (a : Word) : (s.setI a).pc = s.pc := rfl
@[simp] theorem State.setI_sp (a : Word) : (s.setI a).sp = s.sp := rfl
@[simp] theorem State.setI_stk (a : Word) : (s.setI a).stk = s.stk := rfl
@[simp] theorem State.setI_dt (a : Word) : (s.setI a).dt = s.dt := rfl
@[simp] theorem State.setI_st (a : Word) : (s.setI a).st = s.st := rfl
@[simp] theorem State.setI_mem (a : Word) : (s.setI a).mem = s.mem := rfl
@[simp] theorem State.setI_fb (a : Word) : (s.setI a).fb = s.fb := rfl
@[simp] theorem State.setI_mode (a : Word) : (s.setI a).mode = s.mode := rfl
@[simp] theorem State.setI_wx (a : Word) : (s.setI a).wx = s.wx := rfl
@[simp] theorem State.setI_kprev (a : Word) : (s.setI a).kprev = s.kprev := rfl
@[simp] theorem State.setI_faultInfo (a : Word) : (s.setI a).faultInfo = s.faultInfo := rfl
@[simp] theorem State.setI_keys (a : Word) : (s.setI a).keys = s.keys := rfl
@[simp] theorem State.setI_rnd (a : Word) : (s.setI a).rnd = s.rnd := rfl
@[simp] theorem State.setI_inputs (a : Word) : (s.setI a).inputs = s.inputs := rfl
@[simp] theorem State.setI_draws (a : Word) : (s.setI a).draws = s.draws := rfl
@[simp] theorem State.setI_result (a : Word) : (s.setI a).result = s.result := rfl
@[simp] theorem State.setI_reg (a : Word) (q : Reg) : (s.setI a).reg q = s.reg q := rfl

/-! ## `setMem` -/

@[simp] theorem State.setMem_params (m : Memory) : (s.setMem m).params = s.params := rfl
@[simp] theorem State.setMem_v (m : Memory) : (s.setMem m).v = s.v := rfl
@[simp] theorem State.setMem_i (m : Memory) : (s.setMem m).i = s.i := rfl
@[simp] theorem State.setMem_pc (m : Memory) : (s.setMem m).pc = s.pc := rfl
@[simp] theorem State.setMem_sp (m : Memory) : (s.setMem m).sp = s.sp := rfl
@[simp] theorem State.setMem_stk (m : Memory) : (s.setMem m).stk = s.stk := rfl
@[simp] theorem State.setMem_dt (m : Memory) : (s.setMem m).dt = s.dt := rfl
@[simp] theorem State.setMem_st (m : Memory) : (s.setMem m).st = s.st := rfl
@[simp] theorem State.setMem_mem (m : Memory) : (s.setMem m).mem = m := rfl
@[simp] theorem State.setMem_fb (m : Memory) : (s.setMem m).fb = s.fb := rfl
@[simp] theorem State.setMem_mode (m : Memory) : (s.setMem m).mode = s.mode := rfl
@[simp] theorem State.setMem_wx (m : Memory) : (s.setMem m).wx = s.wx := rfl
@[simp] theorem State.setMem_kprev (m : Memory) : (s.setMem m).kprev = s.kprev := rfl
@[simp] theorem State.setMem_faultInfo (m : Memory) : (s.setMem m).faultInfo = s.faultInfo := rfl
@[simp] theorem State.setMem_keys (m : Memory) : (s.setMem m).keys = s.keys := rfl
@[simp] theorem State.setMem_rnd (m : Memory) : (s.setMem m).rnd = s.rnd := rfl
@[simp] theorem State.setMem_inputs (m : Memory) : (s.setMem m).inputs = s.inputs := rfl
@[simp] theorem State.setMem_draws (m : Memory) : (s.setMem m).draws = s.draws := rfl
@[simp] theorem State.setMem_result (m : Memory) : (s.setMem m).result = s.result := rfl
@[simp] theorem State.setMem_reg (m : Memory) (q : Reg) : (s.setMem m).reg q = s.reg q := rfl

/-! ## `setFb` -/

@[simp] theorem State.setFb_params (fb : FrameBuffer) : (s.setFb fb).params = s.params := rfl
@[simp] theorem State.setFb_v (fb : FrameBuffer) : (s.setFb fb).v = s.v := rfl
@[simp] theorem State.setFb_i (fb : FrameBuffer) : (s.setFb fb).i = s.i := rfl
@[simp] theorem State.setFb_pc (fb : FrameBuffer) : (s.setFb fb).pc = s.pc := rfl
@[simp] theorem State.setFb_sp (fb : FrameBuffer) : (s.setFb fb).sp = s.sp := rfl
@[simp] theorem State.setFb_stk (fb : FrameBuffer) : (s.setFb fb).stk = s.stk := rfl
@[simp] theorem State.setFb_dt (fb : FrameBuffer) : (s.setFb fb).dt = s.dt := rfl
@[simp] theorem State.setFb_st (fb : FrameBuffer) : (s.setFb fb).st = s.st := rfl
@[simp] theorem State.setFb_mem (fb : FrameBuffer) : (s.setFb fb).mem = s.mem := rfl
@[simp] theorem State.setFb_fb (fb : FrameBuffer) : (s.setFb fb).fb = fb := rfl
@[simp] theorem State.setFb_mode (fb : FrameBuffer) : (s.setFb fb).mode = s.mode := rfl
@[simp] theorem State.setFb_wx (fb : FrameBuffer) : (s.setFb fb).wx = s.wx := rfl
@[simp] theorem State.setFb_kprev (fb : FrameBuffer) : (s.setFb fb).kprev = s.kprev := rfl
@[simp] theorem State.setFb_faultInfo (fb : FrameBuffer) : (s.setFb fb).faultInfo = s.faultInfo := rfl
@[simp] theorem State.setFb_keys (fb : FrameBuffer) : (s.setFb fb).keys = s.keys := rfl
@[simp] theorem State.setFb_rnd (fb : FrameBuffer) : (s.setFb fb).rnd = s.rnd := rfl
@[simp] theorem State.setFb_inputs (fb : FrameBuffer) : (s.setFb fb).inputs = s.inputs := rfl
@[simp] theorem State.setFb_draws (fb : FrameBuffer) : (s.setFb fb).draws = s.draws := rfl
@[simp] theorem State.setFb_result (fb : FrameBuffer) : (s.setFb fb).result = s.result := rfl
@[simp] theorem State.setFb_reg (fb : FrameBuffer) (q : Reg) : (s.setFb fb).reg q = s.reg q := rfl

/-! ## `setDt` -/

@[simp] theorem State.setDt_params (b : Byte) : (s.setDt b).params = s.params := rfl
@[simp] theorem State.setDt_v (b : Byte) : (s.setDt b).v = s.v := rfl
@[simp] theorem State.setDt_i (b : Byte) : (s.setDt b).i = s.i := rfl
@[simp] theorem State.setDt_pc (b : Byte) : (s.setDt b).pc = s.pc := rfl
@[simp] theorem State.setDt_sp (b : Byte) : (s.setDt b).sp = s.sp := rfl
@[simp] theorem State.setDt_stk (b : Byte) : (s.setDt b).stk = s.stk := rfl
@[simp] theorem State.setDt_dt (b : Byte) : (s.setDt b).dt = b := rfl
@[simp] theorem State.setDt_st (b : Byte) : (s.setDt b).st = s.st := rfl
@[simp] theorem State.setDt_mem (b : Byte) : (s.setDt b).mem = s.mem := rfl
@[simp] theorem State.setDt_fb (b : Byte) : (s.setDt b).fb = s.fb := rfl
@[simp] theorem State.setDt_mode (b : Byte) : (s.setDt b).mode = s.mode := rfl
@[simp] theorem State.setDt_wx (b : Byte) : (s.setDt b).wx = s.wx := rfl
@[simp] theorem State.setDt_kprev (b : Byte) : (s.setDt b).kprev = s.kprev := rfl
@[simp] theorem State.setDt_faultInfo (b : Byte) : (s.setDt b).faultInfo = s.faultInfo := rfl
@[simp] theorem State.setDt_keys (b : Byte) : (s.setDt b).keys = s.keys := rfl
@[simp] theorem State.setDt_rnd (b : Byte) : (s.setDt b).rnd = s.rnd := rfl
@[simp] theorem State.setDt_inputs (b : Byte) : (s.setDt b).inputs = s.inputs := rfl
@[simp] theorem State.setDt_draws (b : Byte) : (s.setDt b).draws = s.draws := rfl
@[simp] theorem State.setDt_result (b : Byte) : (s.setDt b).result = s.result := rfl
@[simp] theorem State.setDt_reg (b : Byte) (q : Reg) : (s.setDt b).reg q = s.reg q := rfl

/-! ## `setSt` -/

@[simp] theorem State.setSt_params (b : Byte) : (s.setSt b).params = s.params := rfl
@[simp] theorem State.setSt_v (b : Byte) : (s.setSt b).v = s.v := rfl
@[simp] theorem State.setSt_i (b : Byte) : (s.setSt b).i = s.i := rfl
@[simp] theorem State.setSt_pc (b : Byte) : (s.setSt b).pc = s.pc := rfl
@[simp] theorem State.setSt_sp (b : Byte) : (s.setSt b).sp = s.sp := rfl
@[simp] theorem State.setSt_stk (b : Byte) : (s.setSt b).stk = s.stk := rfl
@[simp] theorem State.setSt_dt (b : Byte) : (s.setSt b).dt = s.dt := rfl
@[simp] theorem State.setSt_st (b : Byte) : (s.setSt b).st = b := rfl
@[simp] theorem State.setSt_mem (b : Byte) : (s.setSt b).mem = s.mem := rfl
@[simp] theorem State.setSt_fb (b : Byte) : (s.setSt b).fb = s.fb := rfl
@[simp] theorem State.setSt_mode (b : Byte) : (s.setSt b).mode = s.mode := rfl
@[simp] theorem State.setSt_wx (b : Byte) : (s.setSt b).wx = s.wx := rfl
@[simp] theorem State.setSt_kprev (b : Byte) : (s.setSt b).kprev = s.kprev := rfl
@[simp] theorem State.setSt_faultInfo (b : Byte) : (s.setSt b).faultInfo = s.faultInfo := rfl
@[simp] theorem State.setSt_keys (b : Byte) : (s.setSt b).keys = s.keys := rfl
@[simp] theorem State.setSt_rnd (b : Byte) : (s.setSt b).rnd = s.rnd := rfl
@[simp] theorem State.setSt_inputs (b : Byte) : (s.setSt b).inputs = s.inputs := rfl
@[simp] theorem State.setSt_draws (b : Byte) : (s.setSt b).draws = s.draws := rfl
@[simp] theorem State.setSt_result (b : Byte) : (s.setSt b).result = s.result := rfl
@[simp] theorem State.setSt_reg (b : Byte) (q : Reg) : (s.setSt b).reg q = s.reg q := rfl

/-! ## `retire` -/

@[simp] theorem State.retire_params (a : PcAction) : (s.retire a).params = s.params := rfl
@[simp] theorem State.retire_v (a : PcAction) : (s.retire a).v = s.v := rfl
@[simp] theorem State.retire_i (a : PcAction) : (s.retire a).i = s.i := rfl
@[simp] theorem State.retire_pc (a : PcAction) : (s.retire a).pc = a.newPc s.pc := rfl
@[simp] theorem State.retire_sp (a : PcAction) : (s.retire a).sp = s.sp := rfl
@[simp] theorem State.retire_stk (a : PcAction) : (s.retire a).stk = s.stk := rfl
@[simp] theorem State.retire_dt (a : PcAction) : (s.retire a).dt = s.dt := rfl
@[simp] theorem State.retire_st (a : PcAction) : (s.retire a).st = s.st := rfl
@[simp] theorem State.retire_mem (a : PcAction) : (s.retire a).mem = s.mem := rfl
@[simp] theorem State.retire_fb (a : PcAction) : (s.retire a).fb = s.fb := rfl
@[simp] theorem State.retire_mode (a : PcAction) : (s.retire a).mode = s.mode := rfl
@[simp] theorem State.retire_wx (a : PcAction) : (s.retire a).wx = s.wx := rfl
@[simp] theorem State.retire_kprev (a : PcAction) : (s.retire a).kprev = s.kprev := rfl
@[simp] theorem State.retire_faultInfo (a : PcAction) : (s.retire a).faultInfo = s.faultInfo := rfl
@[simp] theorem State.retire_keys (a : PcAction) : (s.retire a).keys = s.keys := rfl
@[simp] theorem State.retire_rnd (a : PcAction) : (s.retire a).rnd = s.rnd := rfl
@[simp] theorem State.retire_inputs (a : PcAction) : (s.retire a).inputs = s.inputs := rfl
@[simp] theorem State.retire_draws (a : PcAction) : (s.retire a).draws = s.draws := rfl
@[simp] theorem State.retire_result (a : PcAction) : (s.retire a).result = some a.tickResult := rfl
@[simp] theorem State.retire_reg (a : PcAction) (q : Reg) : (s.retire a).reg q = s.reg q := rfl

/-! ## `raise` -/

@[simp] theorem State.raise_params (e : FaultInfo) : (s.raise e).params = s.params := rfl
@[simp] theorem State.raise_v (e : FaultInfo) : (s.raise e).v = s.v := rfl
@[simp] theorem State.raise_i (e : FaultInfo) : (s.raise e).i = s.i := rfl
@[simp] theorem State.raise_pc (e : FaultInfo) : (s.raise e).pc = s.pc := rfl
@[simp] theorem State.raise_sp (e : FaultInfo) : (s.raise e).sp = s.sp := rfl
@[simp] theorem State.raise_stk (e : FaultInfo) : (s.raise e).stk = s.stk := rfl
@[simp] theorem State.raise_dt (e : FaultInfo) : (s.raise e).dt = s.dt := rfl
@[simp] theorem State.raise_st (e : FaultInfo) : (s.raise e).st = s.st := rfl
@[simp] theorem State.raise_mem (e : FaultInfo) : (s.raise e).mem = s.mem := rfl
@[simp] theorem State.raise_fb (e : FaultInfo) : (s.raise e).fb = s.fb := rfl
@[simp] theorem State.raise_mode (e : FaultInfo) : (s.raise e).mode = Mode.fault := rfl
@[simp] theorem State.raise_wx (e : FaultInfo) : (s.raise e).wx = s.wx := rfl
@[simp] theorem State.raise_kprev (e : FaultInfo) : (s.raise e).kprev = s.kprev := rfl
@[simp] theorem State.raise_faultInfo (e : FaultInfo) : (s.raise e).faultInfo = some e := rfl
@[simp] theorem State.raise_keys (e : FaultInfo) : (s.raise e).keys = s.keys := rfl
@[simp] theorem State.raise_rnd (e : FaultInfo) : (s.raise e).rnd = s.rnd := rfl
@[simp] theorem State.raise_inputs (e : FaultInfo) : (s.raise e).inputs = s.inputs := rfl
@[simp] theorem State.raise_draws (e : FaultInfo) : (s.raise e).draws = s.draws := rfl
@[simp] theorem State.raise_result (e : FaultInfo) : (s.raise e).result = some (.fatal e) := rfl
@[simp] theorem State.raise_reg (e : FaultInfo) (q : Reg) : (s.raise e).reg q = s.reg q := rfl

/-! ## `skipUnknown` -/

@[simp] theorem State.skipUnknown_params (w : Word) : (s.skipUnknown w).params = s.params := rfl
@[simp] theorem State.skipUnknown_v (w : Word) : (s.skipUnknown w).v = s.v := rfl
@[simp] theorem State.skipUnknown_i (w : Word) : (s.skipUnknown w).i = s.i := rfl
@[simp] theorem State.skipUnknown_pc (w : Word) : (s.skipUnknown w).pc = s.pc + 2 := rfl
@[simp] theorem State.skipUnknown_sp (w : Word) : (s.skipUnknown w).sp = s.sp := rfl
@[simp] theorem State.skipUnknown_stk (w : Word) : (s.skipUnknown w).stk = s.stk := rfl
@[simp] theorem State.skipUnknown_dt (w : Word) : (s.skipUnknown w).dt = s.dt := rfl
@[simp] theorem State.skipUnknown_st (w : Word) : (s.skipUnknown w).st = s.st := rfl
@[simp] theorem State.skipUnknown_mem (w : Word) : (s.skipUnknown w).mem = s.mem := rfl
@[simp] theorem State.skipUnknown_fb (w : Word) : (s.skipUnknown w).fb = s.fb := rfl
@[simp] theorem State.skipUnknown_mode (w : Word) : (s.skipUnknown w).mode = s.mode := rfl
@[simp] theorem State.skipUnknown_wx (w : Word) : (s.skipUnknown w).wx = s.wx := rfl
@[simp] theorem State.skipUnknown_kprev (w : Word) : (s.skipUnknown w).kprev = s.kprev := rfl
@[simp] theorem State.skipUnknown_faultInfo (w : Word) : (s.skipUnknown w).faultInfo = s.faultInfo := rfl
@[simp] theorem State.skipUnknown_keys (w : Word) : (s.skipUnknown w).keys = s.keys := rfl
@[simp] theorem State.skipUnknown_rnd (w : Word) : (s.skipUnknown w).rnd = s.rnd := rfl
@[simp] theorem State.skipUnknown_inputs (w : Word) : (s.skipUnknown w).inputs = s.inputs := rfl
@[simp] theorem State.skipUnknown_draws (w : Word) : (s.skipUnknown w).draws = s.draws := rfl
@[simp] theorem State.skipUnknown_result (w : Word) : (s.skipUnknown w).result = some (.unknown s.pc w) := rfl
@[simp] theorem State.skipUnknown_reg (w : Word) (q : Reg) : (s.skipUnknown w).reg q = s.reg q := rfl

/-! ## `loadRange` -/

@[simp] theorem State.loadRange_params (a : Nat) (x : Reg) : (s.loadRange a x).params = s.params := rfl
@[simp] theorem State.loadRange_i (a : Nat) (x : Reg) : (s.loadRange a x).i = s.i := rfl
@[simp] theorem State.loadRange_pc (a : Nat) (x : Reg) : (s.loadRange a x).pc = s.pc := rfl
@[simp] theorem State.loadRange_sp (a : Nat) (x : Reg) : (s.loadRange a x).sp = s.sp := rfl
@[simp] theorem State.loadRange_stk (a : Nat) (x : Reg) : (s.loadRange a x).stk = s.stk := rfl
@[simp] theorem State.loadRange_dt (a : Nat) (x : Reg) : (s.loadRange a x).dt = s.dt := rfl
@[simp] theorem State.loadRange_st (a : Nat) (x : Reg) : (s.loadRange a x).st = s.st := rfl
@[simp] theorem State.loadRange_mem (a : Nat) (x : Reg) : (s.loadRange a x).mem = s.mem := rfl
@[simp] theorem State.loadRange_fb (a : Nat) (x : Reg) : (s.loadRange a x).fb = s.fb := rfl
@[simp] theorem State.loadRange_mode (a : Nat) (x : Reg) : (s.loadRange a x).mode = s.mode := rfl
@[simp] theorem State.loadRange_wx (a : Nat) (x : Reg) : (s.loadRange a x).wx = s.wx := rfl
@[simp] theorem State.loadRange_kprev (a : Nat) (x : Reg) : (s.loadRange a x).kprev = s.kprev := rfl
@[simp] theorem State.loadRange_faultInfo (a : Nat) (x : Reg) : (s.loadRange a x).faultInfo = s.faultInfo := rfl
@[simp] theorem State.loadRange_keys (a : Nat) (x : Reg) : (s.loadRange a x).keys = s.keys := rfl
@[simp] theorem State.loadRange_rnd (a : Nat) (x : Reg) : (s.loadRange a x).rnd = s.rnd := rfl
@[simp] theorem State.loadRange_inputs (a : Nat) (x : Reg) : (s.loadRange a x).inputs = s.inputs := rfl
@[simp] theorem State.loadRange_draws (a : Nat) (x : Reg) : (s.loadRange a x).draws = s.draws := rfl
@[simp] theorem State.loadRange_result (a : Nat) (x : Reg) : (s.loadRange a x).result = s.result := rfl

/-! ## `enterWait` -/

@[simp] theorem State.enterWait_params (x : Reg) : (s.enterWait x).params = s.params := rfl
@[simp] theorem State.enterWait_v (x : Reg) : (s.enterWait x).v = s.v := rfl
@[simp] theorem State.enterWait_i (x : Reg) : (s.enterWait x).i = s.i := rfl
@[simp] theorem State.enterWait_pc (x : Reg) : (s.enterWait x).pc = s.pc := rfl
@[simp] theorem State.enterWait_sp (x : Reg) : (s.enterWait x).sp = s.sp := rfl
@[simp] theorem State.enterWait_stk (x : Reg) : (s.enterWait x).stk = s.stk := rfl
@[simp] theorem State.enterWait_dt (x : Reg) : (s.enterWait x).dt = s.dt := rfl
@[simp] theorem State.enterWait_st (x : Reg) : (s.enterWait x).st = s.st := rfl
@[simp] theorem State.enterWait_mem (x : Reg) : (s.enterWait x).mem = s.mem := rfl
@[simp] theorem State.enterWait_fb (x : Reg) : (s.enterWait x).fb = s.fb := rfl
@[simp] theorem State.enterWait_mode (x : Reg) : (s.enterWait x).mode = Mode.waitKey := rfl
@[simp] theorem State.enterWait_wx (x : Reg) : (s.enterWait x).wx = x := rfl
@[simp] theorem State.enterWait_kprev (x : Reg) : (s.enterWait x).kprev = s.keys := rfl
@[simp] theorem State.enterWait_faultInfo (x : Reg) : (s.enterWait x).faultInfo = s.faultInfo := rfl
@[simp] theorem State.enterWait_keys (x : Reg) : (s.enterWait x).keys = s.keys := rfl
@[simp] theorem State.enterWait_rnd (x : Reg) : (s.enterWait x).rnd = s.rnd := rfl
@[simp] theorem State.enterWait_inputs (x : Reg) : (s.enterWait x).inputs = s.inputs := rfl
@[simp] theorem State.enterWait_draws (x : Reg) : (s.enterWait x).draws = s.draws := rfl
@[simp] theorem State.enterWait_result (x : Reg) : (s.enterWait x).result = s.result := rfl
@[simp] theorem State.enterWait_reg (x : Reg) (q : Reg) : (s.enterWait x).reg q = s.reg q := rfl

/-! ## `leaveWait` -/

@[simp] theorem State.leaveWait_params (k : Key) : (s.leaveWait k).params = s.params := rfl
@[simp] theorem State.leaveWait_v (k : Key) : (s.leaveWait k).v = (s.writeReg s.wx (BitVec.ofNat 8 k.val)).v := rfl
@[simp] theorem State.leaveWait_i (k : Key) : (s.leaveWait k).i = s.i := rfl
@[simp] theorem State.leaveWait_pc (k : Key) : (s.leaveWait k).pc = s.pc := rfl
@[simp] theorem State.leaveWait_sp (k : Key) : (s.leaveWait k).sp = s.sp := rfl
@[simp] theorem State.leaveWait_stk (k : Key) : (s.leaveWait k).stk = s.stk := rfl
@[simp] theorem State.leaveWait_dt (k : Key) : (s.leaveWait k).dt = s.dt := rfl
@[simp] theorem State.leaveWait_st (k : Key) : (s.leaveWait k).st = s.st := rfl
@[simp] theorem State.leaveWait_mem (k : Key) : (s.leaveWait k).mem = s.mem := rfl
@[simp] theorem State.leaveWait_fb (k : Key) : (s.leaveWait k).fb = s.fb := rfl
@[simp] theorem State.leaveWait_mode (k : Key) : (s.leaveWait k).mode = Mode.running := rfl
@[simp] theorem State.leaveWait_wx (k : Key) : (s.leaveWait k).wx = s.wx := rfl
@[simp] theorem State.leaveWait_kprev (k : Key) : (s.leaveWait k).kprev = s.kprev := rfl
@[simp] theorem State.leaveWait_faultInfo (k : Key) : (s.leaveWait k).faultInfo = s.faultInfo := rfl
@[simp] theorem State.leaveWait_keys (k : Key) : (s.leaveWait k).keys = s.keys := rfl
@[simp] theorem State.leaveWait_rnd (k : Key) : (s.leaveWait k).rnd = s.rnd := rfl
@[simp] theorem State.leaveWait_inputs (k : Key) : (s.leaveWait k).inputs = s.inputs := rfl
@[simp] theorem State.leaveWait_draws (k : Key) : (s.leaveWait k).draws = s.draws := rfl
@[simp] theorem State.leaveWait_result (k : Key) : (s.leaveWait k).result = s.result := rfl

/-! ## `keepWaiting` -/

@[simp] theorem State.keepWaiting_params : (s.keepWaiting).params = s.params := rfl
@[simp] theorem State.keepWaiting_v : (s.keepWaiting).v = s.v := rfl
@[simp] theorem State.keepWaiting_i : (s.keepWaiting).i = s.i := rfl
@[simp] theorem State.keepWaiting_pc : (s.keepWaiting).pc = s.pc := rfl
@[simp] theorem State.keepWaiting_sp : (s.keepWaiting).sp = s.sp := rfl
@[simp] theorem State.keepWaiting_stk : (s.keepWaiting).stk = s.stk := rfl
@[simp] theorem State.keepWaiting_dt : (s.keepWaiting).dt = s.dt := rfl
@[simp] theorem State.keepWaiting_st : (s.keepWaiting).st = s.st := rfl
@[simp] theorem State.keepWaiting_mem : (s.keepWaiting).mem = s.mem := rfl
@[simp] theorem State.keepWaiting_fb : (s.keepWaiting).fb = s.fb := rfl
@[simp] theorem State.keepWaiting_mode : (s.keepWaiting).mode = s.mode := rfl
@[simp] theorem State.keepWaiting_wx : (s.keepWaiting).wx = s.wx := rfl
@[simp] theorem State.keepWaiting_kprev : (s.keepWaiting).kprev = s.keys := rfl
@[simp] theorem State.keepWaiting_faultInfo : (s.keepWaiting).faultInfo = s.faultInfo := rfl
@[simp] theorem State.keepWaiting_keys : (s.keepWaiting).keys = s.keys := rfl
@[simp] theorem State.keepWaiting_rnd : (s.keepWaiting).rnd = s.rnd := rfl
@[simp] theorem State.keepWaiting_inputs : (s.keepWaiting).inputs = s.inputs := rfl
@[simp] theorem State.keepWaiting_draws : (s.keepWaiting).draws = s.draws := rfl
@[simp] theorem State.keepWaiting_result : (s.keepWaiting).result = some .awaitingKey := rfl
@[simp] theorem State.keepWaiting_reg (q : Reg) : (s.keepWaiting).reg q = s.reg q := rfl

/-! ## `draw` -/

@[simp] theorem State.draw_params (x y : Reg) (n : RowCount) : (s.draw x y n).params = s.params := rfl
@[simp] theorem State.draw_i (x y : Reg) (n : RowCount) : (s.draw x y n).i = s.i := rfl
@[simp] theorem State.draw_pc (x y : Reg) (n : RowCount) : (s.draw x y n).pc = s.pc := rfl
@[simp] theorem State.draw_sp (x y : Reg) (n : RowCount) : (s.draw x y n).sp = s.sp := rfl
@[simp] theorem State.draw_stk (x y : Reg) (n : RowCount) : (s.draw x y n).stk = s.stk := rfl
@[simp] theorem State.draw_dt (x y : Reg) (n : RowCount) : (s.draw x y n).dt = s.dt := rfl
@[simp] theorem State.draw_st (x y : Reg) (n : RowCount) : (s.draw x y n).st = s.st := rfl
@[simp] theorem State.draw_mem (x y : Reg) (n : RowCount) : (s.draw x y n).mem = s.mem := rfl
@[simp] theorem State.draw_fb (x y : Reg) (n : RowCount) : (s.draw x y n).fb = (drawPixels s.fb (s.spriteOf x y n)).1 := rfl
@[simp] theorem State.draw_mode (x y : Reg) (n : RowCount) : (s.draw x y n).mode = s.mode := rfl
@[simp] theorem State.draw_wx (x y : Reg) (n : RowCount) : (s.draw x y n).wx = s.wx := rfl
@[simp] theorem State.draw_kprev (x y : Reg) (n : RowCount) : (s.draw x y n).kprev = s.kprev := rfl
@[simp] theorem State.draw_faultInfo (x y : Reg) (n : RowCount) : (s.draw x y n).faultInfo = s.faultInfo := rfl
@[simp] theorem State.draw_keys (x y : Reg) (n : RowCount) : (s.draw x y n).keys = s.keys := rfl
@[simp] theorem State.draw_rnd (x y : Reg) (n : RowCount) : (s.draw x y n).rnd = s.rnd := rfl
@[simp] theorem State.draw_inputs (x y : Reg) (n : RowCount) : (s.draw x y n).inputs = s.inputs := rfl
@[simp] theorem State.draw_draws (x y : Reg) (n : RowCount) : (s.draw x y n).draws = s.draws := rfl
@[simp] theorem State.draw_result (x y : Reg) (n : RowCount) : (s.draw x y n).result = s.result := rfl

/-! ## `decrementTimers` -/

@[simp] theorem State.decrementTimers_params : (s.decrementTimers).params = s.params := rfl
@[simp] theorem State.decrementTimers_v : (s.decrementTimers).v = s.v := rfl
@[simp] theorem State.decrementTimers_i : (s.decrementTimers).i = s.i := rfl
@[simp] theorem State.decrementTimers_pc : (s.decrementTimers).pc = s.pc := rfl
@[simp] theorem State.decrementTimers_sp : (s.decrementTimers).sp = s.sp := rfl
@[simp] theorem State.decrementTimers_stk : (s.decrementTimers).stk = s.stk := rfl
@[simp] theorem State.decrementTimers_dt : (s.decrementTimers).dt = decrementTimer s.dt := rfl
@[simp] theorem State.decrementTimers_st : (s.decrementTimers).st = decrementTimer s.st := rfl
@[simp] theorem State.decrementTimers_mem : (s.decrementTimers).mem = s.mem := rfl
@[simp] theorem State.decrementTimers_fb : (s.decrementTimers).fb = s.fb := rfl
@[simp] theorem State.decrementTimers_mode : (s.decrementTimers).mode = s.mode := rfl
@[simp] theorem State.decrementTimers_wx : (s.decrementTimers).wx = s.wx := rfl
@[simp] theorem State.decrementTimers_kprev : (s.decrementTimers).kprev = s.kprev := rfl
@[simp] theorem State.decrementTimers_faultInfo : (s.decrementTimers).faultInfo = s.faultInfo := rfl
@[simp] theorem State.decrementTimers_keys : (s.decrementTimers).keys = s.keys := rfl
@[simp] theorem State.decrementTimers_rnd : (s.decrementTimers).rnd = s.rnd := rfl
@[simp] theorem State.decrementTimers_inputs : (s.decrementTimers).inputs = s.inputs := rfl
@[simp] theorem State.decrementTimers_draws : (s.decrementTimers).draws = s.draws := rfl
@[simp] theorem State.decrementTimers_result : (s.decrementTimers).result = s.result := rfl
@[simp] theorem State.decrementTimers_reg (q : Reg) : (s.decrementTimers).reg q = s.reg q := rfl

/-! ## `decrementTimersTimes` -/

@[simp] theorem State.decrementTimersTimes_params (n : Nat) : (s.decrementTimersTimes n).params = s.params := rfl
@[simp] theorem State.decrementTimersTimes_v (n : Nat) : (s.decrementTimersTimes n).v = s.v := rfl
@[simp] theorem State.decrementTimersTimes_i (n : Nat) : (s.decrementTimersTimes n).i = s.i := rfl
@[simp] theorem State.decrementTimersTimes_pc (n : Nat) : (s.decrementTimersTimes n).pc = s.pc := rfl
@[simp] theorem State.decrementTimersTimes_sp (n : Nat) : (s.decrementTimersTimes n).sp = s.sp := rfl
@[simp] theorem State.decrementTimersTimes_stk (n : Nat) : (s.decrementTimersTimes n).stk = s.stk := rfl
@[simp] theorem State.decrementTimersTimes_dt (n : Nat) : (s.decrementTimersTimes n).dt = decrementTimer^[n] s.dt := rfl
@[simp] theorem State.decrementTimersTimes_st (n : Nat) : (s.decrementTimersTimes n).st = decrementTimer^[n] s.st := rfl
@[simp] theorem State.decrementTimersTimes_mem (n : Nat) : (s.decrementTimersTimes n).mem = s.mem := rfl
@[simp] theorem State.decrementTimersTimes_fb (n : Nat) : (s.decrementTimersTimes n).fb = s.fb := rfl
@[simp] theorem State.decrementTimersTimes_mode (n : Nat) : (s.decrementTimersTimes n).mode = s.mode := rfl
@[simp] theorem State.decrementTimersTimes_wx (n : Nat) : (s.decrementTimersTimes n).wx = s.wx := rfl
@[simp] theorem State.decrementTimersTimes_kprev (n : Nat) : (s.decrementTimersTimes n).kprev = s.kprev := rfl
@[simp] theorem State.decrementTimersTimes_faultInfo (n : Nat) : (s.decrementTimersTimes n).faultInfo = s.faultInfo := rfl
@[simp] theorem State.decrementTimersTimes_keys (n : Nat) : (s.decrementTimersTimes n).keys = s.keys := rfl
@[simp] theorem State.decrementTimersTimes_rnd (n : Nat) : (s.decrementTimersTimes n).rnd = s.rnd := rfl
@[simp] theorem State.decrementTimersTimes_inputs (n : Nat) : (s.decrementTimersTimes n).inputs = s.inputs := rfl
@[simp] theorem State.decrementTimersTimes_draws (n : Nat) : (s.decrementTimersTimes n).draws = s.draws := rfl
@[simp] theorem State.decrementTimersTimes_result (n : Nat) : (s.decrementTimersTimes n).result = s.result := rfl
@[simp] theorem State.decrementTimersTimes_reg (n : Nat) (q : Reg) : (s.decrementTimersTimes n).reg q = s.reg q := rfl

/-! ## `beginTick` -/

@[simp] theorem State.beginTick_params : (s.beginTick).params = s.params := rfl
@[simp] theorem State.beginTick_v : (s.beginTick).v = s.v := rfl
@[simp] theorem State.beginTick_i : (s.beginTick).i = s.i := rfl
@[simp] theorem State.beginTick_pc : (s.beginTick).pc = s.pc := rfl
@[simp] theorem State.beginTick_sp : (s.beginTick).sp = s.sp := rfl
@[simp] theorem State.beginTick_stk : (s.beginTick).stk = s.stk := rfl
@[simp] theorem State.beginTick_dt : (s.beginTick).dt = decrementTimer^[s.nextInput.decrements] s.dt := rfl
@[simp] theorem State.beginTick_st : (s.beginTick).st = decrementTimer^[s.nextInput.decrements] s.st := rfl
@[simp] theorem State.beginTick_mem : (s.beginTick).mem = s.mem := rfl
@[simp] theorem State.beginTick_fb : (s.beginTick).fb = s.fb := rfl
@[simp] theorem State.beginTick_mode : (s.beginTick).mode = s.mode := rfl
@[simp] theorem State.beginTick_wx : (s.beginTick).wx = s.wx := rfl
@[simp] theorem State.beginTick_kprev : (s.beginTick).kprev = s.kprev := rfl
@[simp] theorem State.beginTick_faultInfo : (s.beginTick).faultInfo = s.faultInfo := rfl
@[simp] theorem State.beginTick_keys : (s.beginTick).keys = s.nextInput.keys := rfl
@[simp] theorem State.beginTick_rnd : (s.beginTick).rnd = s.nextInput.rnd := rfl
@[simp] theorem State.beginTick_inputs : (s.beginTick).inputs = s.inputs.tail := rfl
@[simp] theorem State.beginTick_draws : (s.beginTick).draws = s.nextDraws := rfl
@[simp] theorem State.beginTick_result : (s.beginTick).result = s.result := rfl
@[simp] theorem State.beginTick_reg (q : Reg) : (s.beginTick).reg q = s.reg q := rfl

/-! ## `stepI` -/

/-- `stepI` is a write of I. -/
theorem State.stepI_eq_setI (x : Reg) :
    s.stepI x = s.setI (if s.params.loadStoreIInc then s.i + BitVec.ofNat 16 (x.val + 1) else s.i) := by
  unfold State.stepI State.setI
  split <;> rfl

@[simp] theorem State.stepI_params (x : Reg) : (s.stepI x).params = s.params := by rw [State.stepI_eq_setI]; rfl
@[simp] theorem State.stepI_v (x : Reg) : (s.stepI x).v = s.v := by rw [State.stepI_eq_setI]; rfl
@[simp] theorem State.stepI_i (x : Reg) :
    (s.stepI x).i = if s.params.loadStoreIInc then s.i + BitVec.ofNat 16 (x.val + 1) else s.i := by
  rw [State.stepI_eq_setI]; rfl
@[simp] theorem State.stepI_pc (x : Reg) : (s.stepI x).pc = s.pc := by rw [State.stepI_eq_setI]; rfl
@[simp] theorem State.stepI_sp (x : Reg) : (s.stepI x).sp = s.sp := by rw [State.stepI_eq_setI]; rfl
@[simp] theorem State.stepI_stk (x : Reg) : (s.stepI x).stk = s.stk := by rw [State.stepI_eq_setI]; rfl
@[simp] theorem State.stepI_dt (x : Reg) : (s.stepI x).dt = s.dt := by rw [State.stepI_eq_setI]; rfl
@[simp] theorem State.stepI_st (x : Reg) : (s.stepI x).st = s.st := by rw [State.stepI_eq_setI]; rfl
@[simp] theorem State.stepI_mem (x : Reg) : (s.stepI x).mem = s.mem := by rw [State.stepI_eq_setI]; rfl
@[simp] theorem State.stepI_fb (x : Reg) : (s.stepI x).fb = s.fb := by rw [State.stepI_eq_setI]; rfl
@[simp] theorem State.stepI_mode (x : Reg) : (s.stepI x).mode = s.mode := by rw [State.stepI_eq_setI]; rfl
@[simp] theorem State.stepI_wx (x : Reg) : (s.stepI x).wx = s.wx := by rw [State.stepI_eq_setI]; rfl
@[simp] theorem State.stepI_kprev (x : Reg) : (s.stepI x).kprev = s.kprev := by rw [State.stepI_eq_setI]; rfl
@[simp] theorem State.stepI_faultInfo (x : Reg) : (s.stepI x).faultInfo = s.faultInfo := by rw [State.stepI_eq_setI]; rfl
@[simp] theorem State.stepI_keys (x : Reg) : (s.stepI x).keys = s.keys := by rw [State.stepI_eq_setI]; rfl
@[simp] theorem State.stepI_rnd (x : Reg) : (s.stepI x).rnd = s.rnd := by rw [State.stepI_eq_setI]; rfl
@[simp] theorem State.stepI_inputs (x : Reg) : (s.stepI x).inputs = s.inputs := by rw [State.stepI_eq_setI]; rfl
@[simp] theorem State.stepI_draws (x : Reg) : (s.stepI x).draws = s.draws := by rw [State.stepI_eq_setI]; rfl
@[simp] theorem State.stepI_result (x : Reg) : (s.stepI x).result = s.result := by rw [State.stepI_eq_setI]; rfl
@[simp] theorem State.stepI_reg (x q : Reg) : (s.stepI x).reg q = s.reg q := by rw [State.stepI_eq_setI]; rfl

/-! ## `resetWith` and `hostReset` -/

@[simp] theorem State.resetWith_params (p : Params) : (State.resetWith p).params = p := rfl
@[simp] theorem State.resetWith_v (p : Params) : (State.resetWith p).v = Vector.replicate 16 0 := rfl
@[simp] theorem State.resetWith_i (p : Params) : (State.resetWith p).i = 0 := rfl
@[simp] theorem State.resetWith_pc (p : Params) : (State.resetWith p).pc = p.origin := rfl
@[simp] theorem State.resetWith_sp (p : Params) : (State.resetWith p).sp = 0 := rfl
@[simp] theorem State.resetWith_stk (p : Params) : (State.resetWith p).stk = Vector.replicate 16 0 := rfl
@[simp] theorem State.resetWith_dt (p : Params) : (State.resetWith p).dt = 0 := rfl
@[simp] theorem State.resetWith_st (p : Params) : (State.resetWith p).st = 0 := rfl
@[simp] theorem State.resetWith_mem (p : Params) : (State.resetWith p).mem = [] := rfl
@[simp] theorem State.resetWith_fb (p : Params) : (State.resetWith p).fb = Vector.replicate 32 0 := rfl
@[simp] theorem State.resetWith_mode (p : Params) : (State.resetWith p).mode = Mode.running := rfl
@[simp] theorem State.resetWith_wx (p : Params) : (State.resetWith p).wx = 0 := rfl
@[simp] theorem State.resetWith_kprev (p : Params) : (State.resetWith p).kprev = 0 := rfl
@[simp] theorem State.resetWith_faultInfo (p : Params) : (State.resetWith p).faultInfo = none := rfl
@[simp] theorem State.resetWith_keys (p : Params) : (State.resetWith p).keys = 0 := rfl
@[simp] theorem State.resetWith_rnd (p : Params) : (State.resetWith p).rnd = 0 := rfl
@[simp] theorem State.resetWith_inputs (p : Params) : (State.resetWith p).inputs = [] := rfl
@[simp] theorem State.resetWith_draws (p : Params) : (State.resetWith p).draws = 0 := rfl
@[simp] theorem State.resetWith_result (p : Params) : (State.resetWith p).result = none := rfl
@[simp] theorem State.hostReset_params (p : Params) : (s.hostReset p).params = p := rfl
@[simp] theorem State.hostReset_v (p : Params) : (s.hostReset p).v = Vector.replicate 16 0 := rfl
@[simp] theorem State.hostReset_i (p : Params) : (s.hostReset p).i = 0 := rfl
@[simp] theorem State.hostReset_pc (p : Params) : (s.hostReset p).pc = p.origin := rfl
@[simp] theorem State.hostReset_sp (p : Params) : (s.hostReset p).sp = 0 := rfl
@[simp] theorem State.hostReset_stk (p : Params) : (s.hostReset p).stk = Vector.replicate 16 0 := rfl
@[simp] theorem State.hostReset_dt (p : Params) : (s.hostReset p).dt = 0 := rfl
@[simp] theorem State.hostReset_st (p : Params) : (s.hostReset p).st = 0 := rfl
@[simp] theorem State.hostReset_mem (p : Params) : (s.hostReset p).mem = [] := rfl
@[simp] theorem State.hostReset_fb (p : Params) : (s.hostReset p).fb = Vector.replicate 32 0 := rfl
@[simp] theorem State.hostReset_mode (p : Params) : (s.hostReset p).mode = Mode.running := rfl
@[simp] theorem State.hostReset_wx (p : Params) : (s.hostReset p).wx = 0 := rfl
@[simp] theorem State.hostReset_kprev (p : Params) : (s.hostReset p).kprev = 0 := rfl
@[simp] theorem State.hostReset_faultInfo (p : Params) : (s.hostReset p).faultInfo = none := rfl
@[simp] theorem State.hostReset_keys (p : Params) : (s.hostReset p).keys = 0 := rfl
@[simp] theorem State.hostReset_rnd (p : Params) : (s.hostReset p).rnd = 0 := rfl
@[simp] theorem State.hostReset_inputs (p : Params) : (s.hostReset p).inputs = s.inputs := rfl
@[simp] theorem State.hostReset_draws (p : Params) : (s.hostReset p).draws = s.draws := rfl
@[simp] theorem State.hostReset_result (p : Params) : (s.hostReset p).result = none := rfl

end Sys2Proof.Machine
end

