-- ==== Sys2Proof/Laws/Registers.lean ====
section
/-! SUPPORT. What a register reads as after each update of the register file, and the flag bytes. -/

namespace Sys2Proof.Machine

/-- A register after a write to one. -/
theorem State.reg_writeReg (s : State) (r q : Reg) (b : Byte) :
    (s.writeReg r b).reg q = if q = r then b else s.reg q := by
  simp only [State.reg, State.writeReg, Fin.getElem_fin, Vector.getElem_set]
  by_cases h : q = r
  · simp [h]
  · have : r.val ≠ q.val := fun e => h (Fin.ext e.symm)
    simp [h, this]

@[simp] theorem State.reg_writeReg_same (s : State) (r : Reg) (b : Byte) : (s.writeReg r b).reg r = b := by
  simp [State.reg_writeReg]

theorem State.reg_writeReg_ne (s : State) {r q : Reg} (b : Byte) (h : q ≠ r) :
    (s.writeReg r b).reg q = s.reg q := by
  simp [State.reg_writeReg, h]

/-- A register after a result and a flag: the flag wins on VF (R130). -/
theorem State.reg_writeResultFlag (s : State) (r q : Reg) (a b : Byte) :
    (s.writeResultFlag r a b).reg q = if q = Reg.vf then b else if q = r then a else s.reg q := by
  simp only [State.writeResultFlag, State.reg_writeReg]

/-- A register after a range load (R174). -/
theorem State.reg_loadRange (s : State) (base : Nat) (x q : Reg) :
    (s.loadRange base x).reg q = if q ≤ x then s.mem.read (base + q.val) else s.reg q := by
  simp only [State.loadRange, State.reg, Fin.getElem_fin, Vector.getElem_ofFn]

/-- A register after a sprite draw (R153). -/
theorem State.reg_draw (s : State) (x y q : Reg) (n : RowCount) :
    (s.draw x y n).reg q =
      if q = Reg.vf then flagByte (drawPixels s.fb (s.spriteOf x y n)).2 else s.reg q := by
  simp only [State.draw, State.reg_writeReg, State.setFb_reg]

/-- A register after the end of a key wait (R88). -/
theorem State.reg_leaveWait (s : State) (k : Key) (q : Reg) :
    (s.leaveWait k).reg q = if q = s.wx then BitVec.ofNat 8 k.val else s.reg q := by
  rw [← State.reg_writeReg]
  rfl

/-- States with the same registers have the same register file. -/
theorem State.v_ext {s t : State} (h : ∀ r, t.reg r = s.reg r) : t.v = s.v := by
  refine Vector.ext fun j hj => ?_
  simpa only [State.reg, Fin.getElem_fin] using h ⟨j, hj⟩

theorem flagByte_toNat (b : Bool) : (flagByte b).toNat = if b then 1 else 0 := by cases b <;> rfl

/-- A flag byte is 0x00 or 0x01 (R12). -/
theorem flagByte_le_one (b : Bool) : (flagByte b).toNat ≤ 1 := by cases b <;> decide

/-- The bytes that FX55 stores: one for each register V[0]..V[x] (R173). -/
@[simp] theorem State.length_regRange (s : State) (x : Reg) : (s.regRange x).length = x.val + 1 := by
  simp [State.regRange]

theorem State.getElem_regRange (s : State) (x : Reg) (j : Nat) (h : j < (s.regRange x).length) :
    (s.regRange x)[j] = s.reg ⟨j, by rw [State.length_regRange] at h; omega⟩ := by
  simp [State.regRange, State.reg]

end Sys2Proof.Machine
end

