-- ==== Sys2Proof/Laws/Ops.lean ====
section
/-! SUPPORT. What each shared operation can do, said once: accesses through I, the stack, fetch, keys, timers, inputs. -/

namespace Sys2Proof.Machine

/-! ## Results that may raise -/

@[simp] theorem State.orRaise_ok (s t : State) : s.orRaise (.ok t) = t := rfl

@[simp] theorem State.orRaise_error (s : State) (e : FaultInfo) : s.orRaise (.error e) = s.raise e := rfl

/-! ## Accesses through I (R55) -/

theorem rangeExists_iff {base len : Nat} :
    rangeExists base len = true ↔ len = 0 ∨ base + len ≤ Config.memSize := by
  simp [rangeExists]

theorem State.throughI_ok {s t : State} {len : Nat} (h : rangeExists s.baseAddr len = true) :
    s.throughI len t = t := if_pos h

theorem State.throughI_error {s t : State} {len : Nat} (h : rangeExists s.baseAddr len = false) :
    s.throughI len t = s.raise (rangeError s.baseAddr) := if_neg (by simp [h])

/-- The spec's table of access errors and the model's check agree (R55, R181). -/
theorem State.accessError_eq (s : State) (len : Nat) :
    s.accessError len = if rangeExists s.baseAddr len = true then none else some (rangeError s.baseAddr) := by
  unfold State.accessError
  simp only [rangeExists_iff, State.baseAddr, rangeError, outOfBounds, Config.memSize]
  split <;> split <;> first | rfl | omega

/-! ## The stack (R15) -/

/-- A push with room stores at SP and raises SP by one. -/
theorem State.push_ok {s : State} {a : Word} (h : s.sp.val < 16) :
    s.push a = .ok { s with stk := s.stk.set s.sp.val a, sp := ⟨s.sp.val + 1, by omega⟩ } := dif_pos h

theorem State.push_full {s : State} {a : Word} (h : s.sp.val = 16) :
    s.push a = .error ⟨.stackOverflow, 16⟩ := by
  unfold State.push
  rw [dif_neg (by omega), h]

/-- A pop of an entry lowers SP by one and answers the entry there. -/
theorem State.pop_ok {s : State} (h : s.sp.val ≠ 0) :
    s.pop = .ok (s.stk[s.sp.val - 1]'(by omega), { s with sp := ⟨s.sp.val - 1, by omega⟩ }) := dif_neg h

theorem State.pop_empty {s : State} (h : s.sp.val = 0) : s.pop = .error ⟨.stackUnderflow, 0⟩ := by
  unfold State.pop
  rw [dif_pos h, h]

/-! ## Fetch (R83) -/

theorem State.fetchWord_ok {s : State} (h : s.pc.toNat + 1 < Config.memSize) :
    s.fetchWord = .ok (wordOfBytes (s.mem.read s.pc.toNat) (s.mem.read (s.pc.toNat + 1))) := by
  simp [State.fetchWord, Memory.memRead_ok (show s.pc.toNat < Config.memSize by omega), Memory.memRead_ok h]

theorem State.fetchWord_second {s : State} (h : s.pc.toNat + 1 = Config.memSize) :
    s.fetchWord = .error (outOfBounds Config.memSize) := by
  simp only [State.fetchWord, Memory.memRead_ok (show s.pc.toNat < Config.memSize by omega), h,
    Memory.memRead_error (le_refl Config.memSize)]

theorem State.fetchWord_first {s : State} (h : Config.memSize ≤ s.pc.toNat) :
    s.fetchWord = .error (outOfBounds s.pc.toNat) := by
  simp [State.fetchWord, Memory.memRead_error h]

/-- A fetch that succeeds had PC at most 0xFFE. -/
theorem State.pc_of_fetchWord {s : State} {w : Word} (h : s.fetchWord = .ok w) :
    s.pc.toNat + 1 < Config.memSize := by
  rcases lt_trichotomy (s.pc.toNat + 1) Config.memSize with hlt | heq | hgt
  · exact hlt
  · rw [State.fetchWord_second heq] at h; cases h
  · rw [State.fetchWord_first (by omega)] at h; cases h

/-- Fetch depends on PC and memory only. -/
theorem State.fetchWord_congr {s t : State} (hpc : t.pc = s.pc) (hmem : t.mem = s.mem) :
    t.fetchWord = s.fetchWord := by
  simp only [State.fetchWord, hpc, hmem]

theorem State.fetchedInstr_congr {s t : State} (hpc : t.pc = s.pc) (hmem : t.mem = s.mem) :
    t.fetchedInstr = s.fetchedInstr := by
  simp only [State.fetchedInstr, State.fetchWord_congr hpc hmem]

/-- A fetched instruction comes from a PC of at most 0xFFE. -/
theorem State.pc_of_fetchedInstr {s : State} {i : Instr} (h : s.fetchedInstr = some i) :
    s.pc.toNat + 1 < Config.memSize := by
  unfold State.fetchedInstr at h
  split at h
  · exact State.pc_of_fetchWord ‹_›
  · cases h

/-! ## Keys (R88, R167) -/

theorem State.withKey_ok {s : State} {x : Reg} {t : Bool → State} (h : (s.reg x).toNat ≤ 0x0F) :
    s.withKey x t = t (s.keys.getLsbD (s.reg x).toNat) := if_pos h

theorem State.withKey_error {s : State} {x : Reg} {t : Bool → State} (h : 0x0F < (s.reg x).toNat) :
    s.withKey x t = s.raise (outOfBounds (s.reg x).toNat) := if_neg (by omega)

/-- The key found is down. -/
theorem leastKey_down {keys : Word} {k : Key} (h : leastKey keys = some k) : keys.getLsbD k.val = true := by
  simpa using List.find?_some h

/-- No smaller key than the one found is down. -/
theorem leastKey_least {keys : Word} {k j : Key} (h : leastKey keys = some k) (hj : j < k) :
    keys.getLsbD j.val = false := by
  unfold leastKey at h
  rw [List.find?_eq_some_iff_append] at h
  obtain ⟨_, as, bs, hl, hall⟩ := h
  have hmem : j ∈ List.finRange 16 := List.mem_finRange j
  have hsorted : (List.finRange 16).Pairwise (· < ·) := List.pairwise_lt_finRange 16
  rw [hl] at hmem hsorted
  rcases List.mem_append.mp hmem with ha | hb
  · simpa using hall j ha
  · have := (List.pairwise_append.mp hsorted).2.1
    rcases List.mem_cons.mp hb with rfl | hb
    · exact absurd hj (lt_irrefl _)
    · exact absurd (List.rel_of_pairwise_cons this hb) (not_lt_of_gt hj)

/-- No key is found exactly when none is down. -/
theorem leastKey_none_iff {keys : Word} : leastKey keys = none ↔ ∀ j : Key, keys.getLsbD j.val = false := by
  simp [leastKey]

/-- A key down with no smaller key down is the one found. -/
theorem leastKey_eq_some {keys : Word} {k : Key} (hk : keys.getLsbD k.val = true)
    (hleast : ∀ j : Key, j < k → keys.getLsbD j.val = false) : leastKey keys = some k := by
  cases h : leastKey keys with
  | none => rw [leastKey_none_iff.mp h k] at hk; cases hk
  | some j =>
    rcases lt_trichotomy j k with hlt | rfl | hgt
    · have hdown := leastKey_down h
      rw [hleast j hlt] at hdown; cases hdown
    · rfl
    · rw [leastKey_least h hgt] at hk; cases hk

/-- A key counts as new when it is down and was up at the previous sample (R88). -/
theorem State.newKeys_getLsbD (s : State) (k : Key) :
    s.newKeys.getLsbD k.val = (s.keys.getLsbD k.val && !s.kprev.getLsbD k.val) := by
  rw [State.newKeys, BitVec.getLsbD_and, BitVec.getLsbD_not]
  simp only [k.isLt, decide_true, Bool.true_and]

/-- No key is new exactly when every key down was down at the previous sample (R88). -/
theorem State.leastKey_newKeys_none_iff {s : State} :
    leastKey s.newKeys = none ↔ ∀ k : Key, s.keys.getLsbD k.val = true → s.kprev.getLsbD k.val = true := by
  rw [leastKey_none_iff]
  refine forall_congr' fun k => ?_
  rw [State.newKeys_getLsbD]
  cases s.keys.getLsbD k.val <;> cases s.kprev.getLsbD k.val <;> decide

/-! ## Timers (R192) -/

theorem decrementTimer_toNat (t : Byte) : (decrementTimer t).toNat = t.toNat - 1 := by
  unfold decrementTimer
  split
  · rename_i h; simp [h]
  · rename_i h
    have : t.toNat ≠ 0 := fun e => h (BitVec.eq_of_toNat_eq (by simpa using e))
    have hlt := t.isLt
    rw [BitVec.toNat_sub]
    simp only [BitVec.reduceToNat]
    omega

/-- A timer decremented n times: n less, stopping at 0. -/
theorem iterate_decrementTimer_toNat (n : Nat) (t : Byte) : (decrementTimer^[n] t).toNat = t.toNat - n := by
  induction n generalizing t with
  | zero => rfl
  | succ n ih => rw [Function.iterate_succ_apply, ih, decrementTimer_toNat]; omega

@[simp] theorem State.decrementTimersTimes_zero (s : State) : s.decrementTimersTimes 0 = s := rfl

/-- `decrementTimersTimes n` is `decrement_timers` n times. -/
theorem State.decrementTimersTimes_succ (s : State) (n : Nat) :
    s.decrementTimersTimes (n + 1) = s.decrementTimers.decrementTimersTimes n := rfl

/-! ## The tick's inputs (R81) -/

theorem State.nextInput_cons {s : State} {input : TickInput} {rest : List TickInput}
    (h : s.inputs = input :: rest) : s.nextInput = input := by
  simp [State.nextInput, h]

theorem State.nextDraws_cons {s : State} {input : TickInput} {rest : List TickInput}
    (h : s.inputs = input :: rest) : s.nextDraws = s.draws := by
  simp [State.nextDraws, h]

@[simp] theorem State.beginTick_fetchWord (s : State) : s.beginTick.fetchWord = s.fetchWord := rfl

@[simp] theorem State.beginTick_fetchedInstr (s : State) : s.beginTick.fetchedInstr = s.fetchedInstr := rfl

/-! ## The tick, by mode (R82) -/

theorem State.tick_running {s : State} (h : s.mode = .running) : s.tick = s.runTick := by simp [State.tick, h]

theorem State.tick_waitKey {s : State} (h : s.mode = .waitKey) : s.tick = .next s.waitTick := by
  simp [State.tick, h]

theorem State.tick_fault {s : State} (h : s.mode = .fault) : s.tick = s.faultTick := by simp [State.tick, h]

/-- What a tick in RUNNING can do: raise the error of its fetch, skip an Unknown word, or run an instruction. -/
theorem State.runTick_cases (s : State) :
    (∃ e, s.fetchWord = .error e ∧ s.runTick = .next (s.raise e)) ∨
    (∃ w, s.fetchWord = .ok w ∧ decodeWord w = none ∧ s.runTick = .next (s.skipUnknown w)) ∨
    (∃ i, s.fetchedInstr = some i ∧ s.runTick = exec i s) := by
  unfold State.runTick State.fetchedInstr
  cases hf : s.fetchWord with
  | error e => exact .inl ⟨e, rfl, rfl⟩
  | ok w =>
    cases hd : decodeWord w with
    | none => exact .inr (.inl ⟨w, rfl, hd, by simp only [hd]⟩)
    | some i => exact .inr (.inr ⟨i, hd, by simp only [hd]⟩)

theorem State.runTick_of_fetchedInstr {s : State} {i : Instr} (h : s.fetchedInstr = some i) :
    s.runTick = exec i s := by
  unfold State.fetchedInstr at h
  unfold State.runTick
  split at h
  · rename_i w hw
    simp only [hw, h]
  · cases h

/-- What a tick in WAIT_KEY can do (R88). -/
theorem State.waitTick_cases (s : State) :
    (∃ k, leastKey s.newKeys = some k ∧ s.waitTick = (s.leaveWait k).retire .advance) ∨
    (leastKey s.newKeys = none ∧ s.waitTick = s.keepWaiting) := by
  unfold State.waitTick
  cases h : leastKey s.newKeys with
  | none => exact .inr ⟨rfl, rfl⟩
  | some k => exact .inl ⟨k, rfl, rfl⟩

/-- A step in WAIT_KEY is a sample on the tick's inputs (R82, R88). -/
theorem step_waitKey {s : State} (h : s.mode = .waitKey) : step s = .next s.beginTick.waitTick :=
  State.tick_waitKey h

/-! ## Steps in a row -/

@[simp] theorem State.steps_zero (s : State) : s.steps 0 = .next s := rfl

theorem State.steps_succ {s t : State} (n : Nat) (h : step s = .next t) : s.steps (n + 1) = t.steps n := by
  simp only [State.steps, h]

theorem noNewKeys_cons {previous keys : Word} {later : List Word} :
    noNewKeys previous (keys :: later) ↔
      (∀ k : Key, keys.getLsbD k.val = true → previous.getLsbD k.val = true) ∧ noNewKeys keys later := Iff.rfl

end Sys2Proof.Machine
end

