-- ==== Sys2Proof/Laws/PerInstr.lean ====
section
/-!
SUPPORT. Facts about every instruction as syntax, one lemma per constructor.

`Elab.async` is off in the files of many small theorems, here and in the tests: each one elaborated on a thread of its own
would take more memory than the compile may use.
-/

set_option Elab.async false

namespace Sys2Proof.Laws

theorem fits_x (r : Reg) : Field.fits .x r.val = true := decide_eq_true r.isLt

theorem fits_y (r : Reg) : Field.fits .y r.val = true := decide_eq_true r.isLt

theorem fits_n (n : RowCount) : Field.fits .n n.val = true := decide_eq_true n.isLt

theorem fits_nn (b : Byte) : Field.fits .nn b.toNat = true := decide_eq_true b.isLt

theorem fits_nnn (a : Nnn) : Field.fits .nnn a.toNat = true := decide_eq_true a.isLt

/-- Every operand of the instruction fits its field (R61, R63). -/
def OperandsFit.Statement (i : Instr) : Prop := i.wellFormed = true

theorem OperandsFit.cls : OperandsFit.Statement (Instr.cls) := rfl

theorem OperandsFit.ret : OperandsFit.Statement (Instr.ret) := rfl

theorem OperandsFit.jp (a : Nnn) : OperandsFit.Statement (Instr.jp a) := by
  simp [OperandsFit.Statement, Instr.wellFormed, fieldsFit, Instr.fields, fits_nnn a]

theorem OperandsFit.call (a : Nnn) : OperandsFit.Statement (Instr.call a) := by
  simp [OperandsFit.Statement, Instr.wellFormed, fieldsFit, Instr.fields, fits_nnn a]

theorem OperandsFit.seImm (x : Reg) (b : Byte) : OperandsFit.Statement (Instr.seImm x b) := by
  simp [OperandsFit.Statement, Instr.wellFormed, fieldsFit, Instr.fields, fits_x x, fits_nn b]

theorem OperandsFit.sneImm (x : Reg) (b : Byte) : OperandsFit.Statement (Instr.sneImm x b) := by
  simp [OperandsFit.Statement, Instr.wellFormed, fieldsFit, Instr.fields, fits_x x, fits_nn b]

theorem OperandsFit.seReg (x : Reg) (y : Reg) : OperandsFit.Statement (Instr.seReg x y) := by
  simp [OperandsFit.Statement, Instr.wellFormed, fieldsFit, Instr.fields, fits_x x, fits_y y]

theorem OperandsFit.ldImm (x : Reg) (b : Byte) : OperandsFit.Statement (Instr.ldImm x b) := by
  simp [OperandsFit.Statement, Instr.wellFormed, fieldsFit, Instr.fields, fits_x x, fits_nn b]

theorem OperandsFit.addImm (x : Reg) (b : Byte) : OperandsFit.Statement (Instr.addImm x b) := by
  simp [OperandsFit.Statement, Instr.wellFormed, fieldsFit, Instr.fields, fits_x x, fits_nn b]

theorem OperandsFit.ldReg (x : Reg) (y : Reg) : OperandsFit.Statement (Instr.ldReg x y) := by
  simp [OperandsFit.Statement, Instr.wellFormed, fieldsFit, Instr.fields, fits_x x, fits_y y]

theorem OperandsFit.orReg (x : Reg) (y : Reg) : OperandsFit.Statement (Instr.orReg x y) := by
  simp [OperandsFit.Statement, Instr.wellFormed, fieldsFit, Instr.fields, fits_x x, fits_y y]

theorem OperandsFit.andReg (x : Reg) (y : Reg) : OperandsFit.Statement (Instr.andReg x y) := by
  simp [OperandsFit.Statement, Instr.wellFormed, fieldsFit, Instr.fields, fits_x x, fits_y y]

theorem OperandsFit.xorReg (x : Reg) (y : Reg) : OperandsFit.Statement (Instr.xorReg x y) := by
  simp [OperandsFit.Statement, Instr.wellFormed, fieldsFit, Instr.fields, fits_x x, fits_y y]

theorem OperandsFit.addReg (x : Reg) (y : Reg) : OperandsFit.Statement (Instr.addReg x y) := by
  simp [OperandsFit.Statement, Instr.wellFormed, fieldsFit, Instr.fields, fits_x x, fits_y y]

theorem OperandsFit.subReg (x : Reg) (y : Reg) : OperandsFit.Statement (Instr.subReg x y) := by
  simp [OperandsFit.Statement, Instr.wellFormed, fieldsFit, Instr.fields, fits_x x, fits_y y]

theorem OperandsFit.shr (x : Reg) (y : Reg) : OperandsFit.Statement (Instr.shr x y) := by
  simp [OperandsFit.Statement, Instr.wellFormed, fieldsFit, Instr.fields, fits_x x, fits_y y]

theorem OperandsFit.subnReg (x : Reg) (y : Reg) : OperandsFit.Statement (Instr.subnReg x y) := by
  simp [OperandsFit.Statement, Instr.wellFormed, fieldsFit, Instr.fields, fits_x x, fits_y y]

theorem OperandsFit.shl (x : Reg) (y : Reg) : OperandsFit.Statement (Instr.shl x y) := by
  simp [OperandsFit.Statement, Instr.wellFormed, fieldsFit, Instr.fields, fits_x x, fits_y y]

theorem OperandsFit.sneReg (x : Reg) (y : Reg) : OperandsFit.Statement (Instr.sneReg x y) := by
  simp [OperandsFit.Statement, Instr.wellFormed, fieldsFit, Instr.fields, fits_x x, fits_y y]

theorem OperandsFit.ldI (a : Nnn) : OperandsFit.Statement (Instr.ldI a) := by
  simp [OperandsFit.Statement, Instr.wellFormed, fieldsFit, Instr.fields, fits_nnn a]

theorem OperandsFit.jpV0 (a : Nnn) : OperandsFit.Statement (Instr.jpV0 a) := by
  simp [OperandsFit.Statement, Instr.wellFormed, fieldsFit, Instr.fields, fits_nnn a]

theorem OperandsFit.rnd (x : Reg) (b : Byte) : OperandsFit.Statement (Instr.rnd x b) := by
  simp [OperandsFit.Statement, Instr.wellFormed, fieldsFit, Instr.fields, fits_x x, fits_nn b]

theorem OperandsFit.drw (x : Reg) (y : Reg) (n : RowCount) : OperandsFit.Statement (Instr.drw x y n) := by
  simp [OperandsFit.Statement, Instr.wellFormed, fieldsFit, Instr.fields, fits_x x, fits_y y, fits_n n]

theorem OperandsFit.skp (x : Reg) : OperandsFit.Statement (Instr.skp x) := by
  simp [OperandsFit.Statement, Instr.wellFormed, fieldsFit, Instr.fields, fits_x x]

theorem OperandsFit.sknp (x : Reg) : OperandsFit.Statement (Instr.sknp x) := by
  simp [OperandsFit.Statement, Instr.wellFormed, fieldsFit, Instr.fields, fits_x x]

theorem OperandsFit.ldVxDt (x : Reg) : OperandsFit.Statement (Instr.ldVxDt x) := by
  simp [OperandsFit.Statement, Instr.wellFormed, fieldsFit, Instr.fields, fits_x x]

theorem OperandsFit.ldVxK (x : Reg) : OperandsFit.Statement (Instr.ldVxK x) := by
  simp [OperandsFit.Statement, Instr.wellFormed, fieldsFit, Instr.fields, fits_x x]

theorem OperandsFit.ldDtVx (x : Reg) : OperandsFit.Statement (Instr.ldDtVx x) := by
  simp [OperandsFit.Statement, Instr.wellFormed, fieldsFit, Instr.fields, fits_x x]

theorem OperandsFit.ldStVx (x : Reg) : OperandsFit.Statement (Instr.ldStVx x) := by
  simp [OperandsFit.Statement, Instr.wellFormed, fieldsFit, Instr.fields, fits_x x]

theorem OperandsFit.addI (x : Reg) : OperandsFit.Statement (Instr.addI x) := by
  simp [OperandsFit.Statement, Instr.wellFormed, fieldsFit, Instr.fields, fits_x x]

theorem OperandsFit.ldF (x : Reg) : OperandsFit.Statement (Instr.ldF x) := by
  simp [OperandsFit.Statement, Instr.wellFormed, fieldsFit, Instr.fields, fits_x x]

theorem OperandsFit.ldB (x : Reg) : OperandsFit.Statement (Instr.ldB x) := by
  simp [OperandsFit.Statement, Instr.wellFormed, fieldsFit, Instr.fields, fits_x x]

theorem OperandsFit.storeRegs (x : Reg) : OperandsFit.Statement (Instr.storeRegs x) := by
  simp [OperandsFit.Statement, Instr.wellFormed, fieldsFit, Instr.fields, fits_x x]

theorem OperandsFit.loadRegs (x : Reg) : OperandsFit.Statement (Instr.loadRegs x) := by
  simp [OperandsFit.Statement, Instr.wellFormed, fieldsFit, Instr.fields, fits_x x]

end Sys2Proof.Laws
end

