-- ==== Sys2Proof/Tests/Slice0.lean ====
section
/-!
SUPPORT. The model's own tests: the well-formedness check on good and ill-formed operands, one decoding per constructor
from a word written out bit by bit from `30_encoding.md` R65, one or two single ticks per instruction with the results
of `95_test_vectors.md`, and a witness for the hypotheses of every statement that has some.
-/

set_option Elab.async false

namespace Sys2Proof.Tests

open Sys2Proof Sys2Proof.Machine

/-! ## Well-formedness (R61, R63) -/

theorem test_field_x_refuses_16 : Field.fits .x 16 = false ∧ Field.fits .x 15 = true := by decide

theorem test_field_y_refuses_16 : Field.fits .y 16 = false ∧ Field.fits .y 15 = true := by decide

theorem test_field_n_refuses_16 : Field.fits .n 16 = false ∧ Field.fits .n 15 = true := by decide

theorem test_field_nn_refuses_256 : Field.fits .nn 256 = false ∧ Field.fits .nn 255 = true := by decide

theorem test_field_nnn_refuses_4096 : Field.fits .nnn 4096 = false ∧ Field.fits .nnn 4095 = true := by decide

/-- An operand list of the shape of DXYN with a row count of 16, which no word has. -/
theorem test_ill_formed_operands_refused :
    fieldsFit [(.x, 1), (.y, 2), (.n, 16)] = false ∧ fieldsFit [(.x, 16), (.nn, 0)] = false ∧
    fieldsFit [(.nnn, 4096)] = false ∧ fieldsFit [(.x, 1), (.y, 2), (.n, 15)] = true := by decide

theorem test_instruction_well_formed : (Instr.drw 15 15 15).wellFormed = true := by decide

/-! ## Decoding, each word written from its row of R65: op, x, y, n in groups of four bits -/

theorem test_decode_cls : decodeWord 0b0000_0000_1110_0000#16 = some .cls := by decide
theorem test_decode_ret : decodeWord 0b0000_0000_1110_1110#16 = some .ret := by decide
theorem test_decode_jp : decodeWord 0b0001_1010_1011_1100#16 = some (.jp 0xABC) := by decide
theorem test_decode_call : decodeWord 0b0010_1000_0000_0001#16 = some (.call 0x801) := by decide
theorem test_decode_seImm : decodeWord 0b0011_0001_1000_0010#16 = some (.seImm 1 0x82) := by decide
theorem test_decode_sneImm : decodeWord 0b0100_0010_0100_0001#16 = some (.sneImm 2 0x41) := by decide
theorem test_decode_seReg : decodeWord 0b0101_0011_0100_0000#16 = some (.seReg 3 4) := by decide
theorem test_decode_ldImm : decodeWord 0b0110_1111_0000_1001#16 = some (.ldImm 15 0x09) := by decide
theorem test_decode_addImm : decodeWord 0b0111_1000_1100_0000#16 = some (.addImm 8 0xC0) := by decide
theorem test_decode_ldReg : decodeWord 0b1000_0001_0010_0000#16 = some (.ldReg 1 2) := by decide
theorem test_decode_orReg : decodeWord 0b1000_0001_0010_0001#16 = some (.orReg 1 2) := by decide
theorem test_decode_andReg : decodeWord 0b1000_0001_0010_0010#16 = some (.andReg 1 2) := by decide
theorem test_decode_xorReg : decodeWord 0b1000_0001_0010_0011#16 = some (.xorReg 1 2) := by decide
theorem test_decode_addReg : decodeWord 0b1000_1010_0101_0100#16 = some (.addReg 10 5) := by decide
theorem test_decode_subReg : decodeWord 0b1000_1010_0101_0101#16 = some (.subReg 10 5) := by decide
theorem test_decode_shr : decodeWord 0b1000_1010_0101_0110#16 = some (.shr 10 5) := by decide
theorem test_decode_subnReg : decodeWord 0b1000_1010_0101_0111#16 = some (.subnReg 10 5) := by decide
theorem test_decode_shl : decodeWord 0b1000_1010_0101_1110#16 = some (.shl 10 5) := by decide
theorem test_decode_sneReg : decodeWord 0b1001_0011_0100_0000#16 = some (.sneReg 3 4) := by decide
theorem test_decode_ldI : decodeWord 0b1010_0011_0000_0101#16 = some (.ldI 0x305) := by decide
theorem test_decode_jpV0 : decodeWord 0b1011_0011_1010_1010#16 = some (.jpV0 0x3AA) := by decide
theorem test_decode_rnd : decodeWord 0b1100_0011_0000_1111#16 = some (.rnd 3 0x0F) := by decide
theorem test_decode_drw : decodeWord 0b1101_0001_0010_0101#16 = some (.drw 1 2 5) := by decide
theorem test_decode_skp : decodeWord 0b1110_0111_1001_1110#16 = some (.skp 7) := by decide
theorem test_decode_sknp : decodeWord 0b1110_0111_1010_0001#16 = some (.sknp 7) := by decide
theorem test_decode_ldVxDt : decodeWord 0b1111_0001_0000_0111#16 = some (.ldVxDt 1) := by decide
theorem test_decode_ldVxK : decodeWord 0b1111_0011_0000_1010#16 = some (.ldVxK 3) := by decide
theorem test_decode_ldDtVx : decodeWord 0b1111_1001_0001_0101#16 = some (.ldDtVx 9) := by decide
theorem test_decode_ldStVx : decodeWord 0b1111_0011_0001_1000#16 = some (.ldStVx 3) := by decide
theorem test_decode_addI : decodeWord 0b1111_0010_0001_1110#16 = some (.addI 2) := by decide
theorem test_decode_ldF : decodeWord 0b1111_0100_0010_1001#16 = some (.ldF 4) := by decide
theorem test_decode_ldB : decodeWord 0b1111_1110_0011_0011#16 = some (.ldB 14) := by decide
theorem test_decode_storeRegs : decodeWord 0b1111_0010_0101_0101#16 = some (.storeRegs 2) := by decide
theorem test_decode_loadRegs : decodeWord 0b1111_1111_0110_0101#16 = some (.loadRegs 15) := by decide

/-- Near misses of the rows (R64, R66, R141, vectors S8, A31, A32, K9, M22, U2 to U4). -/
theorem test_decode_unknown :
    [0x0000, 0x0123, 0x00E1, 0x00EF, 0x5341, 0x9341, 0x8128, 0x812F, 0xE09F, 0xF034, 0xF0FF, 0xFFFF].all
      (fun w : Word => decodeWord w == none) = true := by decide

/-- The host's number of a word has the word's high byte at the lower address (R44). -/
theorem test_decodeTableWord : decodeTableWord 16 0x1ABC = some (.jp 0xABC) := by decide

/-! ## Single ticks, from `95_test_vectors.md` -/

/-- The state after reset with a word at `pc`, one queued input, and registers as listed. -/
def bench (pc w : Word) (regs : List (Reg × Byte)) (keys : Word := 0) (rnd : Byte := 0) : State :=
  let s := State.reset
  regs.foldl (fun t p => t.writeReg p.1 p.2) ({ s with pc := pc, inputs := [⟨0, keys, rnd⟩] } |>.placeWord w)

/-- The same with I and bytes of memory at I. -/
def benchI (w i : Word) (bytes : List Byte) (regs : List (Reg × Byte)) : State :=
  let s := bench 0x200 w regs
  { s with i := i, mem := s.mem.storeBytes i.toNat bytes }

/-- What a step leaves, seen through `f`; none when it does not answer a next state. -/
def seen {α : Type} (s : State) (f : State → α) : Option α :=
  match step s with
  | .next t => some (f t)
  | .fault _ => none
  | .refused _ => none

/-- PC and the result. -/
def pcResult (t : State) : Word × Option TickResult := (t.pc, t.result)

/-- V[r], VF, PC and the result. -/
def regView (r : Reg) (t : State) : Byte × Byte × Word × Option TickResult := (t.reg r, t.reg Reg.vf, t.pc, t.result)

/-- The bytes of memory from `a` up. -/
def bytesAt (t : State) (a n : Nat) : List Byte := (List.range n).map fun j => t.mem.read (a + j)

theorem test_jp_T1 : seen (bench 0x200 0x1ABC []) pcResult = some (0x0ABC, some .ok) := by decide

theorem test_call_T6 :
    seen (let s := bench 0x400 0x2300 []; { s with sp := 15 }) (fun t => (t.pc, t.sp, t.stk[15])) =
      some (0x0300, 16, 0x0402) := by decide

theorem test_call_T7 :
    seen (let s := bench 0x400 0x2300 []; { s with sp := 16 }) (fun t => (t.pc, t.sp, t.mode, t.faultInfo)) =
      some (0x0400, 16, .fault, some ⟨.stackOverflow, 16⟩) := by decide

theorem test_ret_T11 :
    seen (let s := bench 0x300 0x00EE []; { s with sp := 2, stk := (s.stk.set 0 0x0206).set 1 0x0ABD })
      (fun t => (t.pc, t.sp)) = some (0x0ABD, 1) := by decide

theorem test_ret_T10 :
    seen (bench 0x200 0x00EE []) (fun t => (t.pc, t.mode, t.result)) =
      some (0x0200, .fault, some (.fatal ⟨.stackUnderflow, 0⟩)) := by decide

theorem test_jpV0_T13 : seen (bench 0x200 0xBFFF [(0, 0xFF)]) pcResult = some (0x10FE, some .ok) := by decide

theorem test_jpV0_T14 : seen (bench 0x200 0xB3AA [(3, 0x77)]) pcResult = some (0x03AA, some .ok) := by decide

theorem test_seImm_S1 : seen (bench 0x208 0x3100 []) pcResult = some (0x020C, some .ok) := by decide

theorem test_seImm_S13 : seen (bench 0xFFE 0x3000 []) pcResult = some (0x1002, some .ok) := by decide

theorem test_sneImm_S3 : seen (bench 0x300 0x4211 [(2, 0x10)]) pcResult = some (0x0304, some .ok) := by decide

theorem test_sneImm_S4 : seen (bench 0x300 0x4210 [(2, 0x10)]) pcResult = some (0x0302, some .ok) := by decide

theorem test_seReg_S5 : seen (bench 0x210 0x5340 [(3, 0x7F), (4, 0x7F)]) pcResult = some (0x0214, some .ok) := by decide

theorem test_seReg_S6 : seen (bench 0x210 0x5340 [(3, 0x7F), (4, 0x7E)]) pcResult = some (0x0212, some .ok) := by decide

theorem test_sneReg_S9 : seen (bench 0x210 0x9340 [(3, 0x01), (4, 0x02)]) pcResult = some (0x0214, some .ok) := by decide

theorem test_sneReg_S11 : seen (bench 0x210 0x9330 [(3, 0x55)]) pcResult = some (0x0212, some .ok) := by decide

theorem test_ldImm_L1 : seen (bench 0x200 0x6069 []) (regView 0) = some (0x69, 0, 0x0202, some .ok) := by decide

theorem test_addImm_L4 :
    seen (bench 0x200 0x71C0 [(1, 0x50)]) (regView 1) = some (0x10, 0, 0x0202, some .ok) := by decide

theorem test_addImm_L7 :
    seen (bench 0x200 0x7F02 [(15, 0xFF)]) (regView 15) = some (0x01, 0x01, 0x0202, some .ok) := by decide

theorem test_ldI_L8 :
    seen (benchI 0xA300 0xFFFF [] []) (fun t => (t.i, t.pc)) = some (0x0300, 0x0202) := by decide

theorem test_addI_L10 :
    seen (benchI 0xF01E 0x0FFF [] [(0, 0x01)]) (fun t => (t.i, t.reg Reg.vf)) = some (0x1000, 0) := by decide

theorem test_addI_L11 :
    seen (benchI 0xF01E 0xFFFF [] [(0, 0x02)]) (fun t => (t.i, t.pc)) = some (0x0001, 0x0202) := by decide

theorem test_rnd_L12 :
    seen (bench 0x200 0xC30F [] (rnd := 0xA7)) (regView 3) = some (0x07, 0, 0x0202, some .ok) := by decide

theorem test_ldReg_A1 :
    seen (bench 0x200 0x8120 [(2, 0x33)]) (regView 1) = some (0x33, 0, 0x0202, some .ok) := by decide

theorem test_orReg_A2 :
    seen (bench 0x200 0x8121 [(1, 0xF0), (2, 0x0C), (15, 0x01)]) (regView 1) =
      some (0xFC, 0x01, 0x0202, some .ok) := by decide

theorem test_andReg_A3 :
    seen (bench 0x200 0x8122 [(1, 0xF0), (2, 0x3C), (15, 0x01)]) (regView 1) =
      some (0x30, 0x01, 0x0202, some .ok) := by decide

theorem test_xorReg_A4 :
    seen (bench 0x200 0x8123 [(1, 0xF0), (2, 0x3C), (15, 0x01)]) (regView 1) =
      some (0xCC, 0x01, 0x0202, some .ok) := by decide

theorem test_addReg_A9 :
    seen (bench 0x200 0x8014 [(0, 0xFF), (15, 0x01)]) (regView 0) = some (0xFF, 0x00, 0x0202, some .ok) := by decide

theorem test_addReg_A11 :
    seen (bench 0x200 0x8F14 [(15, 0xFF), (1, 0x02)]) (regView 15) = some (0x01, 0x01, 0x0202, some .ok) := by decide

theorem test_subReg_A14 :
    seen (bench 0x200 0x8125 [(1, 0x05), (2, 0x0A), (15, 0x01)]) (regView 1) =
      some (0xFB, 0x00, 0x0202, some .ok) := by decide

theorem test_subReg_A15 :
    seen (bench 0x200 0x8125 [(1, 0x07), (2, 0x07)]) (regView 1) = some (0x00, 0x01, 0x0202, some .ok) := by decide

theorem test_shr_A21 :
    seen (bench 0x200 0x8106 [(0, 0x81)]) (regView 1) = some (0x40, 0x01, 0x0202, some .ok) := by decide

theorem test_shr_A22 :
    seen (let s := bench 0x200 0x8106 [(0, 0x81), (1, 0x06), (15, 0x01)]
          { s with params := { Params.default with shiftSource := .vx } }) (regView 1) =
      some (0x03, 0x00, 0x0202, some .ok) := by decide

theorem test_subnReg_A18 :
    seen (bench 0x200 0x8127 [(1, 0x05), (2, 0x0A)]) (regView 1) = some (0x05, 0x01, 0x0202, some .ok) := by decide

theorem test_subnReg_A19 :
    seen (bench 0x200 0x8127 [(1, 0x0A), (2, 0x05), (15, 0x01)]) (regView 1) =
      some (0xFB, 0x00, 0x0202, some .ok) := by decide

theorem test_shl_A27 :
    seen (bench 0x200 0x820E [(0, 0x81)]) (regView 2) = some (0x02, 0x01, 0x0202, some .ok) := by decide

theorem test_shl_A29 :
    seen (let s := bench 0x200 0x820E [(0, 0x81), (2, 0x40), (15, 0x01)]
          { s with params := { Params.default with shiftSource := .vx } }) (regView 2) =
      some (0x80, 0x00, 0x0202, some .ok) := by decide

theorem test_cls_D1 :
    seen (let s := bench 0x200 0x00E0 []; { s with fb := ((s.fb.fbXor 0 0).fbXor 63 0).fbXor 63 31 })
      (fun t => (t.fb, t.pc)) = some (FrameBuffer.clear, 0x0202) := by decide

/-- The glyph row C0 80 at (63, 31): wrap in both directions (D5). -/
theorem test_drw_D5 :
    seen (benchI 0xD012 0x0300 [0xC0, 0x80] [(0, 0x3F), (1, 0x1F)]) (fun t => (t.fb, t.reg Reg.vf)) =
      some (((FrameBuffer.clear.fbXor 63 0).fbXor 0 31).fbXor 63 31, 0x00) := by decide

theorem test_drw_D14 :
    seen (benchI 0xD012 0x0FFF [0x80] []) (fun t => (t.fb, t.pc, t.faultInfo)) =
      some (FrameBuffer.clear, 0x0200, some ⟨.outOfBoundsAccess, 0x1000⟩) := by decide

theorem test_skp_K3 : seen (bench 0x200 0xE09E [(0, 0x05)] (keys := 0xFFDF)) pcResult = some (0x0202, some .ok) := by decide

theorem test_skp_K7 :
    seen (bench 0x200 0xE09E [(0, 0x10)] (keys := 0xFFFF)) pcResult =
      some (0x0200, some (.fatal ⟨.outOfBoundsAccess, 0x10⟩)) := by decide

theorem test_sknp_K4 : seen (bench 0x200 0xE0A1 [(0, 0x05)] (keys := 0x0020)) pcResult = some (0x0202, some .ok) := by decide

theorem test_sknp_K5 : seen (bench 0x200 0xE0A1 [(0, 0x05)]) pcResult = some (0x0204, some .ok) := by decide

theorem test_ldVxDt_K10 :
    seen (let s := bench 0x200 0xF107 []; { s with dt := 0x04 }) (regView 1) =
      some (0x04, 0, 0x0202, some .ok) := by decide

theorem test_ldVxK_K14 :
    seen (bench 0x200 0xF30A [] (keys := 0x0004)) (fun t => (t.pc, t.mode, t.wx, t.kprev, t.result)) =
      some (0x0200, .waitKey, 3, 0x0004, some .awaitingKey) := by decide

/-- The later tick of Q3: key 2 held, key 3 newly pressed. -/
theorem test_ldVxK_Q3 :
    seen (let s := bench 0x200 0xF30A [] (keys := 0x000C)
          { s with mode := .waitKey, wx := 3, kprev := 0x0004 }) (fun t => (t.reg 3, t.pc, t.mode, t.result)) =
      some (0x03, 0x0202, .running, some .ok) := by decide

theorem test_ldDtVx_K11 :
    seen (bench 0x200 0xF015 [(0, 0x05)]) (fun t => (t.dt, t.st)) = some (0x05, 0x00) := by decide

theorem test_ldStVx_K12 :
    seen (bench 0x200 0xF318 [(3, 0x1E)]) (fun t => (t.dt, t.st)) = some (0x00, 0x1E) := by decide

theorem test_ldF_M3 : seen (bench 0x200 0xF429 [(4, 0x0F)]) (fun t => t.i) = some 0x009B := by decide

theorem test_ldF_M5 : seen (bench 0x200 0xF029 [(0, 0xFF)]) (fun t => t.i) = some 0x054B := by decide

theorem test_ldB_M10 :
    seen (benchI 0xF033 0x0FFD [9, 9, 9] [(0, 0x64)]) (fun t => bytesAt t 0xFFD 3) = some [1, 0, 0] := by decide

theorem test_ldB_M11 :
    seen (benchI 0xF033 0x0FFE [] [(0, 0x64)]) (fun t => (bytesAt t 0xFFE 2, t.result)) =
      some ([0, 0], some (.fatal ⟨.outOfBoundsAccess, 0x1000⟩)) := by decide

theorem test_storeRegs_M13 :
    seen (let s := benchI 0xF255 0x0400 [] [(0, 0x11), (1, 0x22), (2, 0x33), (3, 0x44)]
          { s with params := { Params.default with loadStoreIInc := true } })
      (fun t => (bytesAt t 0x400 4, t.i)) = some ([0x11, 0x22, 0x33, 0], 0x0403) := by decide

theorem test_storeRegs_M15 :
    seen (benchI 0xF155 0x0FFF [] [(0, 0xAB), (1, 0xCD)]) (fun t => (bytesAt t 0xFFF 1, t.mode)) =
      some ([0], .fault) := by decide

theorem test_loadRegs_M18 :
    seen (benchI 0xF265 0x0300 [2, 5, 4, 0x99] [(3, 0x77)]) (fun t => (t.reg 0, t.reg 1, t.reg 2, t.reg 3, t.i)) =
      some (2, 5, 4, 0x77, 0x0300) := by decide

theorem test_loadRegs_M21 :
    seen (benchI 0xFF65 0x0FF1 [] [(0, 0x55)]) (fun t => (t.reg 0, t.faultInfo)) =
      some (0x55, some ⟨.outOfBoundsAccess, 0x1000⟩) := by decide

theorem test_unknown_U5 :
    seen (bench 0xFFE 0xFFFF []) pcResult = some (0x1000, some (.unknown 0x0FFE 0xFFFF)) := by decide

theorem test_fetch_at_FFF :
    seen (let s := bench 0x200 0 []; { s with pc := 0x0FFF }) (fun t => (t.pc, t.result)) =
      some (0x0FFF, some (.fatal ⟨.outOfBoundsAccess, 0x1000⟩)) := by decide

theorem test_fetch_at_10FE :
    seen (let s := bench 0x200 0 []; { s with pc := 0x10FE }) (fun t => (t.pc, t.result)) =
      some (0x10FE, some (.fatal ⟨.outOfBoundsAccess, 0x10FE⟩)) := by decide

/-- Q5, steps 3 and 4 as one step: a decrement, then a tick in FAULT. -/
theorem test_fault_Q5 :
    seen (let s := bench 0x200 0x00EE []
          { s with dt := 2, mode := .fault, faultInfo := some ⟨.stackUnderflow, 0⟩, inputs := [⟨1, 0, 0⟩] })
      (fun t => (t.dt, t.pc, t.result)) = some (1, 0x0200, some (.fatal ⟨.stackUnderflow, 0⟩)) := by decide

/-- Q6, steps 3 and 4 as one step: two decrements of DT = 1 and ST = 0 before a tick. -/
theorem test_timers_Q6 :
    seen (let s := bench 0x200 0x1200 []; { s with dt := 1, inputs := [⟨2, 0, 0⟩] })
      (fun t => (t.dt, t.st, t.pc)) = some (0, 0, 0x0200) := by decide

/-! ## Witnesses: states and operands that meet the hypotheses of the statements, each clause at a boundary -/

/-- A state with a latched StackUnderflow and one queued input. -/
def faulted : State :=
  let s := bench 0x200 0x00EE []
  { s with mode := .fault, faultInfo := some ⟨.stackUnderflow, 0⟩ }

/-- A state in a key wait of FX0A with x = 3, key 2 held at the last sample, and the sample `keys` queued and latched. -/
def waiting (keys : Word) : State :=
  let s := bench 0x200 0xF30A [] keys
  { s with mode := .waitKey, wx := 3, kprev := 0x0004, keys := keys }

theorem witness_FaultIsLeftOnlyByReset :
    faulted.mode = .fault ∧ (∃ t, step faulted = .next t) ∧ (∃ t, faulted.loadWrite 0xFFF 1 = .ok t) :=
  ⟨rfl, ⟨_, rfl⟩, ⟨_, rfl⟩⟩

theorem witness_LoadWriteStoresOneByte :
    (bench 0x200 0x1200 []).mem.wf = true ∧ (bench 0x200 0x1200 []).result = none ∧ 0xFFF ≤ 0xFFF ∧ 0xFFF < 0x1000 ∧
    { bench 0x200 0x1200 [] with result := some .ok }.result ≠ none := by decide

theorem witness_LoadProgramPutsBytesAtOrigin :
    Params.default.origin.toNat + (List.replicate 3584 (1 : Byte)).length ≤ 4096 ∧
    4096 < Params.default.origin.toNat + (List.replicate 3585 (1 : Byte)).length := by
  simp only [List.length_replicate]; decide

theorem witness_SnapshotIsRowMajorAndObserveIsTheTimersAndMode :
    63 < 64 ∧ 31 < 32 ∧ faulted.mode = .fault ∧ State.reset.mode ≠ .fault := by decide

theorem witness_DecodedWordsAreTheirEncodings : decodeWord 0xD12F = some (.drw 1 2 15) := by decide

theorem witness_DecodingFindsTheOneMatchingRow :
    Instr.row (.jp 0) ∈ opcodeRows ∧ (Instr.row (.jp 0)).selects 0x1FFF = true ∧
    decodeWord 0x1FFF = some (.jp 0xFFF) ∧ decodeWord 0x8128 = none ∧
    (∀ r ∈ opcodeRows, r.selects 0x8128 = false) := by decide

theorem witness_MemReadAndMemWriteAreRangeChecked :
    Memory.wf [(0x000, 1), (0xFFF, 2)] = true ∧ 0xFFF ≤ 0xFFF ∧ 0xFFF < 0x1000 := by decide

theorem witness_CanonicalMemoriesWithEqualBytesAreEqual :
    Memory.wf [(0x000, 1), (0xFFF, 2)] = true ∧ Memory.wf (Memory.write [(0xFFF, 2)] 0x000 1) = true ∧
    ∀ a, a ≤ 0xFFF → Memory.read [(0x000, 1), (0xFFF, 2)] a = Memory.read (Memory.write [(0xFFF, 2)] 0x000 1) a :=
  ⟨by decide, by decide, fun _ _ => rfl⟩

theorem witness_FetchIsBigEndianAndRangeChecked :
    (bench 0xFFE 0x1200 []).pc.toNat ≤ 0xFFE ∧
    { State.reset with pc := 0xFFF }.mode = .running ∧ 0xFFF ≤ { State.reset with pc := 0xFFF }.pc.toNat ∧
    { State.reset with pc := 0x1000 }.mode = .running ∧ 0xFFF ≤ { State.reset with pc := 0x1000 }.pc.toNat := by
  decide

theorem witness_BeginTickLatchesInputsAndRunsTimersDown :
    (bench 0x200 0x1200 [] 7 9).inputs = ⟨0, 7, 9⟩ :: [] ∧ State.reset.inputs = [] := by decide

theorem witness_StepRunsTheDecodedInstruction :
    (bench 0xFFE 0xD12F []).mode = .running ∧ (bench 0xFFE 0xD12F []).pc.toNat ≤ 0xFFE ∧
    decode ((bench 0xFFE 0xD12F []).mem.read (bench 0xFFE 0xD12F []).pc.toNat ::
      (bench 0xFFE 0xD12F []).mem.read ((bench 0xFFE 0xD12F []).pc.toNat + 1) :: []) = .ok (.drw 1 2 15, []) :=
  ⟨by decide, by decide, rfl⟩

theorem witness_UnknownWordIsANoOpAdvance :
    (bench 0xFFE 0xFFFF []).mode = .running ∧ (bench 0xFFE 0xFFFF []).fetchWord = .ok 0xFFFF ∧
    decodeWord 0xFFFF = none := ⟨by decide, rfl, by decide⟩

theorem witness_FaultTickRepeatsTheLatchedError :
    faulted.mode = .fault ∧ faulted.faultInfo = some ⟨.stackUnderflow, 0⟩ := by decide

/-- Key 3 newly down, beside key 2 that was held. -/
theorem witness_WaitTickCompletes :
    (waiting 0x000C).mode = .waitKey ∧
    ∃ k : Key, (waiting 0x000C).keys.getLsbD k.val = true ∧ (waiting 0x000C).kprev.getLsbD k.val = false := by decide

/-- Key 2 still held, and no key at all. -/
theorem witness_WaitTickWaitsOn :
    (waiting 0x0004).mode = .waitKey ∧
    (∀ k : Key, (waiting 0x0004).keys.getLsbD k.val = true → (waiting 0x0004).kprev.getLsbD k.val = true) ∧
    (∀ k : Key, (waiting 0).keys.getLsbD k.val = true → (waiting 0).kprev.getLsbD k.val = true) := by decide

theorem witness_StepStopsOnlyWithoutALatchedError :
    (∃ t, step faulted = .next t) ∧ step { faulted with faultInfo := none } = .fault .faultInfoMissing :=
  ⟨⟨_, rfl⟩, rfl⟩

theorem witness_InvariantHoldsAtResetAndLaunch :
    Params.default.legal = true ∧ { Params.default with origin := 0xFFE }.legal = true ∧
    { Params.default with fontBase := 0xFB04 }.legal = true ∧ Memory.wf [(0xFFF, 1)] = true := by decide

/-- One state of each mode. -/
theorem witness_StepKeepsTheInvariant_running :
    (bench 0x200 0x1ABC []).Inv ∧ ∃ t, step (bench 0x200 0x1ABC []) = .next t := ⟨by decide, ⟨_, rfl⟩⟩

theorem witness_StepKeepsTheInvariant_waiting :
    (waiting 0x0004).Inv ∧ ∃ t, step (waiting 0x0004) = .next t := ⟨by decide, ⟨_, rfl⟩⟩

theorem witness_StepKeepsTheInvariant_fault :
    faulted.Inv ∧ ∃ t, step faulted = .next t := ⟨by decide, ⟨_, rfl⟩⟩

/-- A stack with its two extreme return addresses, 2 and 0x1000. -/
theorem witness_Inv_stack :
    (let s := bench 0x200 0x00EE []; { s with sp := 2, stk := (s.stk.set 0 0x0002).set 1 0x1000 }).Inv := by decide

theorem witness_HostOperationsKeepTheInvariant :
    (bench 0x200 0x1ABC []).Inv ∧ (bench 0x200 0x1ABC []).mode = .running ∧
    ∃ t, (bench 0x200 0x1ABC []).loadWrite 0xFFF 1 = .ok t := ⟨by decide, by decide, ⟨_, rfl⟩⟩

/-- RUNNING to WAIT_KEY, and to FAULT by the fetch and by the instruction. -/
theorem witness_ModeTransitions_running :
    (bench 0x200 0xF30A []).mode = .running ∧ seen (bench 0x200 0xF30A []) State.mode = some .waitKey ∧
    (bench 0x200 0x00EE []).mode = .running ∧ seen (bench 0x200 0x00EE []) State.mode = some .fault ∧
    seen { bench 0x200 0 [] with pc := 0xFFF } State.mode = some .fault := by decide

theorem witness_ModeTransitions_waiting_and_fault :
    seen (waiting 0x000C) State.mode = some .running ∧ seen (waiting 0x0004) State.mode = some .waitKey ∧
    seen faulted State.mode = some .fault := by decide

/-- An error of each table at its boundary, and the value next to it that raises none. -/
theorem witness_FatalErrorsAreExactAndPrecise :
    (bench 0x200 0 []).mode = .running ∧
    (bench 0x200 0 []).errorOf .ret = some ⟨.stackUnderflow, 0⟩ ∧
    { bench 0x200 0 [] with sp := 1 }.errorOf .ret = none ∧
    { bench 0x200 0 [] with sp := 16 }.errorOf (.call 0) = some ⟨.stackOverflow, 16⟩ ∧
    { bench 0x200 0 [] with sp := 15 }.errorOf (.call 0) = none ∧
    (bench 0x200 0 [(0, 0x10)]).errorOf (.skp 0) = some ⟨.outOfBoundsAccess, 0x10⟩ ∧
    (bench 0x200 0 [(0, 0x0F)]).errorOf (.skp 0) = none ∧
    (benchI 0 0x0FFE [] []).errorOf (.ldB 0) = some ⟨.outOfBoundsAccess, 0x1000⟩ ∧
    (benchI 0 0x0FFD [] []).errorOf (.ldB 0) = none ∧
    (benchI 0 0xFFFF [] []).errorOf (.drw 0 0 0) = none ∧
    (bench 0x200 0 []).errorOf (.ldVxK 3) = none ∧
    (benchI 0 0x1001 [] []).errorOf (.drw 0 0 1) = some ⟨.outOfBoundsAccess, 0x1001⟩ := by decide

theorem witness_RegistersAreWrittenOnlyByTheirPorts :
    (∃ t, exec (.ldImm 3 7) State.reset = .next t) ∧ (4 : Reg) ∉ instrWrites (.ldImm 3 7) :=
  ⟨⟨_, rfl⟩, by decide⟩

/-- Register files that differ in register 7 only, which OR V1, V2 does not read. -/
theorem witness_RegistersAreReadOnlyByTheirPorts :
    (∀ r ∈ instrReads State.reset.params.shiftSource (.orReg 1 2), (State.reset.v.set 7 9)[r] = State.reset.v[r]) ∧
    (∃ t, exec (.orReg 1 2) State.reset = .next t) ∧ State.reset.errorOf (.orReg 1 2) = none :=
  ⟨by decide, ⟨_, rfl⟩, by decide⟩

theorem witness_VfIsWrittenAsAFlagByTheSixOnly :
    (∃ t, exec (.ldImm 3 7) State.reset = .next t) ∧ instrWritesFlag (.ldImm 3 7) = false ∧
    Reg.vf ∉ instrWrites (.ldImm 3 7) ∧ (∃ t, exec (.addReg 1 2) State.reset = .next t) ∧
    instrWritesFlag (.addReg 1 2) = true ∧ State.reset.errorOf (.addReg 1 2) = none :=
  ⟨⟨_, rfl⟩, by decide, by decide, ⟨_, rfl⟩, by decide, by decide⟩

/-- Each clause's difference occurs. -/
theorem witness_EachPieceOfStateHasItsOwnWriters :
    seen (bench 0x200 0xA300 []) (fun t => decide (t.i ≠ 0)) = some true ∧
    seen (bench 0x200 0x2300 []) (fun t => decide (t.sp ≠ 0)) = some true ∧
    seen (bench 0x200 0xF015 [(0, 5)]) (fun t => decide (t.dt ≠ 0)) = some true ∧
    seen (bench 0x200 0xF018 [(0, 5)]) (fun t => decide (t.st ≠ 0)) = some true ∧
    seen (benchI 0xF033 0x300 [] [(0, 5)]) (fun t => decide (t.mem ≠ (benchI 0xF033 0x300 [] []).mem)) = some true ∧
    seen (benchI 0xD001 0x300 [0x80] []) (fun t => decide (t.fb ≠ FrameBuffer.clear)) = some true ∧
    seen (bench 0x200 0xF30A []) (fun t => decide (t.wx ≠ 0)) = some true := by decide

theorem witness_SelfJumpIsAFixedPoint :
    (bench 0x200 0x1200 []).mode = .running ∧ (bench 0x200 0x1200 []).fetchedInstr = some (.jp 0x200) ∧
    (bench 0x200 0x1200 []).pc = (0x200 : Nnn).setWidth 16 := by decide

/-- SP at 0, 1, 15 and 16: the clauses of R100 and R102. -/
theorem witness_stack_clauses :
    State.reset.sp.val = 0 ∧ State.reset.sp.val ≠ 16 ∧ { State.reset with sp := 1 }.sp.val ≠ 0 ∧
    { State.reset with sp := 15 }.sp.val ≠ 16 ∧ { State.reset with sp := 16 }.sp.val = 16 ∧
    { State.reset with sp := 16 }.sp.val ≠ 0 := by decide

theorem witness_CallThenRetComesBack : { State.reset with sp := 15 }.sp.val ≠ 16 := by decide

theorem witness_destinations_other_than_vf : (0 : Reg) ≠ Reg.vf ∧ (14 : Reg) ≠ Reg.vf := by decide

theorem witness_ShiftsWriteResultThenEvictedBit :
    (0x81 : Byte) = (if (bench 0x200 0 [(2, 0x81)]).params.shiftSource = .vy then (bench 0x200 0 [(2, 0x81)]).reg 2
      else (bench 0x200 0 [(2, 0x81)]).reg 1) ∧
    { bench 0x200 0 [(1, 0x81)] with params := { Params.default with shiftSource := .vx } }.params.shiftSource = .vx ∧
    { bench 0x200 0 [(1, 0x81)] with params := { Params.default with shiftSource := .vx } }.reg 1 = 0x81 := by decide

/-- n = 0 with any I, the last byte at 0xFFF, and one past it. -/
theorem witness_DrawTogglesTheSpritesPixels_ranges :
    (0 : RowCount).val = 0 ∧ (benchI 0 0x0FF1 [] []).i.toNat + (15 : RowCount).val - 1 ≤ 0xFFF ∧
    1 ≤ (15 : RowCount).val ∧ 0xFFF < (benchI 0 0x0FF2 [] []).i.toNat + (15 : RowCount).val - 1 := by decide

/-- The sprite bit at offset 1 from column 63 falls on column 0, which is lit. -/
theorem witness_DrawTogglesTheSpritesPixels_collision :
    let s := { benchI 0 0x300 [0x40] [(0, 63)] with fb := FrameBuffer.clear.fbXor 0 0 }
    s.spriteCovers 0 1 1 0 0 ∧ s.fb.fbRead 0 0 = true :=
  ⟨⟨0, 1, by decide, by decide, by decide, by decide, by decide⟩, by decide⟩

/-- A row without a 1 bit covers no pixel. -/
theorem witness_DrawTogglesTheSpritesPixels_nothing :
    ¬∃ px py, (benchI 0 0x300 [] []).spriteCovers 0 1 0 px py ∧ (benchI 0 0x300 [] []).fb.fbRead px py = true := by
  rintro ⟨_, _, ⟨_, _, hr, _⟩, _⟩
  exact absurd hr (Nat.not_lt_zero _)

/-- Registers put back with x = y = VF, and registers left as they are with neither VF. -/
theorem witness_DrawingTwiceRestoresTheDisplay :
    let s := benchI 0 0x0FF1 [0xFF] [(15, 0x02)]
    ((15 : RowCount).val = 0 ∨ s.i.toNat + (15 : RowCount).val - 1 ≤ 0xFFF) ∧
    (∃ t, exec (.drw 15 15 15) s = .next t ∧ (s.v = s.v ∨ s.v = t.v)) ∧ (0 : Reg) ≠ Reg.vf ∧ (1 : Reg) ≠ Reg.vf :=
  ⟨by decide, ⟨_, rfl, .inl rfl⟩, by decide, by decide⟩

theorem witness_KeySkipsTestTheSelectedKey :
    ((bench 0x200 0 [(0, 0x0F)]).reg 0).toNat ≤ 0x0F ∧ 0x0F < ((bench 0x200 0 [(0, 0x10)]).reg 0).toNat := by decide

/-- The samples of Q1: key 2 held, released, and pressed again. -/
theorem witness_KeyWaitEndsOnANewlyPressedKey :
    let waits : List TickInput := [⟨0, 0x0004, 0⟩, ⟨1, 0x0000, 0⟩]
    let s := { State.reset with keys := 0x0004, inputs := waits ++ [⟨0, 0x0004, 0⟩] }
    (∃ t, exec (.ldVxK 3) s = .next t) ∧ s.inputs = waits ++ [⟨0, 0x0004, 0⟩] ∧
    noNewKeys s.keys (waits.map TickInput.keys) ∧
    (0x0004 : Word).getLsbD (2 : Key).val = true ∧
    ((waits.map TickInput.keys).getLastD s.keys).getLsbD (2 : Key).val = false ∧
    (∀ j : Key, j < 2 → (0x0004 : Word).getLsbD j.val = true →
      ((waits.map TickInput.keys).getLastD s.keys).getLsbD j.val = true) :=
  ⟨⟨_, rfl⟩, rfl, ⟨by decide, by decide, trivial⟩, by decide, by decide, by decide⟩

/-- A wait of no length: the sample right after the tick that begins it, with key 3 newly down. -/
theorem witness_KeyWaitEndsOnANewlyPressedKey_at_once :
    noNewKeys 0x0004 [] ∧ (0x800C : Word).getLsbD (3 : Key).val = true ∧ (0x0004 : Word).getLsbD (3 : Key).val = false ∧
    (∀ j : Key, j < 3 → (0x800C : Word).getLsbD j.val = true → (0x0004 : Word).getLsbD j.val = true) :=
  ⟨trivial, by decide, by decide, by decide⟩

theorem witness_FontAddressIsFiveBytesPerDigit :
    { State.reset with params := { Params.default with fontBase := 0xFB04 } }.params.fontBase.toNat ≤ 0xFFFF - 1275 := by
  decide

theorem witness_BcdStoresThreeDigits :
    (benchI 0xF033 0x0FFD [9, 9, 9] []).mem.wf = true ∧ (benchI 0xF033 0x0FFD [9, 9, 9] []).i.toNat + 2 ≤ 0xFFF ∧
    (benchI 0xF033 0x0FFE [] []).mem.wf = true ∧ 0xFFF < (benchI 0xF033 0x0FFE [] []).i.toNat + 2 := by decide

/-- I + x at 0xFFF and at 0x1000, for FX55, FX65 and the two in a row. -/
theorem witness_register_ranges :
    (benchI 0xFF55 0x0FF0 [9] []).mem.wf = true ∧ (benchI 0xFF55 0x0FF0 [9] []).i.toNat + (15 : Reg).val ≤ 0xFFF ∧
    0xFFF < (benchI 0xFF55 0x0FF1 [9] []).i.toNat + (15 : Reg).val ∧
    (benchI 0xFF55 0x0FF1 [9] []).mem.wf = true := by decide

/-- FX55 with x = 0 onto the low byte of the next instruction, at the top of memory: the high byte is none of its. -/
theorem witness_StoresAreSeenByTheNextFetch_FX55 :
    let s := { benchI 0xF055 0x0FFF [0xFF] [(0, 0x12)] with pc := 0xFFC }
    s.mem.wf = true ∧ (s.pc + 2).toNat ≤ 0xFFE ∧ s.i.toNat + (0 : Reg).val ≤ 0xFFF ∧
    s.baseAddr + (0 : Reg).val = (s.pc + 2).toNat + 1 ∧ (s.pc + 2).toNat < s.baseAddr := by decide

/-- FX55 with x = 1 onto both bytes (M17). -/
theorem witness_StoresAreSeenByTheNextFetch_both_bytes :
    let s := benchI 0xF155 0x0202 [0xFF, 0xFF] [(0, 0x12), (1, 0x00)]
    s.mem.wf = true ∧ (s.pc + 2).toNat ≤ 0xFFE ∧ s.i.toNat + (1 : Reg).val ≤ 0xFFF ∧
    s.baseAddr + (0 : Reg).val = (s.pc + 2).toNat ∧ s.baseAddr + (1 : Reg).val = (s.pc + 2).toNat + 1 := by decide

/-- FX33 whose last digit falls on the high byte: the low byte is none of its. -/
theorem witness_StoresAreSeenByTheNextFetch_FX33 :
    let s := benchI 0xF033 0x0200 [0xF0, 0x33, 0xFF, 0xFF] [(0, 0xFE)]
    s.mem.wf = true ∧ (s.pc + 2).toNat ≤ 0xFFE ∧ s.i.toNat + 2 ≤ 0xFFF ∧
    s.baseAddr + (2 : Fin 3).val = (s.pc + 2).toNat ∧ s.baseAddr + 3 ≤ (s.pc + 2).toNat + 1 := by decide

/-- Neither store touches the next instruction. -/
theorem witness_StoresAreSeenByTheNextFetch_elsewhere :
    let s := benchI 0xF155 0x0204 [0xFF] []
    s.mem.wf = true ∧ (s.pc + 2).toNat + 1 < s.baseAddr ∧ s.i.toNat + (1 : Reg).val ≤ 0xFFF ∧ s.i.toNat + 2 ≤ 0xFFF := by
  decide

end Sys2Proof.Tests
end

/-!
The effect of an instruction, piece by piece (`10_state.md` R10, R29). The model gives one arm per instruction; the rules
of `10_state.md` speak of one piece of state at a time. `State.completed` is the model's `exec` read that way, and
`exec_eq` ties it to the model.
-/

namespace Sys2Proof.Machine

/-! ## Register writes in order -/

/-- The writes of `writes` to the register file, the first one first. -/
def State.writeAll (s : State) (writes : List (Reg × Byte)) : State :=
  writes.foldl (fun t p => t.writeReg p.1 p.2) s

@[simp] theorem State.writeAll_nil (s : State) : s.writeAll [] = s := rfl

@[simp] theorem State.writeAll_cons (s : State) (p : Reg × Byte) (writes : List (Reg × Byte)) :
    s.writeAll (p :: writes) = (s.writeReg p.1 p.2).writeAll writes := rfl

theorem State.writeAll_append (s : State) (first second : List (Reg × Byte)) :
    s.writeAll (first ++ second) = (s.writeAll first).writeAll second := List.foldl_append

/-- A register that is not written keeps its value. -/
theorem State.reg_writeAll_of_notMem {s : State} {writes : List (Reg × Byte)} {r : Reg}
    (h : r ∉ writes.map Prod.fst) : (s.writeAll writes).reg r = s.reg r := by
  induction writes generalizing s with
  | nil => rfl
  | cons p writes ih =>
    rw [List.map_cons, List.mem_cons, not_or] at h
    rw [State.writeAll_cons, ih h.2, State.reg_writeReg_ne _ _ h.1]

/-- What a written register holds does not depend on the state before. -/
theorem State.reg_writeAll_of_mem {s t : State} {writes : List (Reg × Byte)} {r : Reg}
    (h : r ∈ writes.map Prod.fst) : (s.writeAll writes).reg r = (t.writeAll writes).reg r := by
  induction writes generalizing s t with
  | nil => cases h
  | cons p writes ih =>
    rw [State.writeAll_cons, State.writeAll_cons]
    by_cases hr : r ∈ writes.map Prod.fst
    · exact ih hr
    · have hp : r = p.1 := (List.mem_cons.mp h).resolve_right hr
      rw [State.reg_writeAll_of_notMem hr, State.reg_writeAll_of_notMem hr, hp, State.reg_writeReg_same,
        State.reg_writeReg_same]

/-- Registers written from a function of their number. -/
theorem State.reg_writeAll_map (s : State) (regs : List Reg) (value : Reg → Byte) (r : Reg) :
    (s.writeAll (regs.map fun q => (q, value q))).reg r = if r ∈ regs then value r else s.reg r := by
  induction regs generalizing s with
  | nil => simp
  | cons q regs ih =>
    rw [List.map_cons, State.writeAll_cons, ih, State.reg_writeReg]
    by_cases hr : r ∈ regs
    · simp [hr]
    · by_cases hq : r = q <;> simp [hr, hq]

theorem mem_regsUpTo {x r : Reg} : r ∈ regsUpTo x ↔ r ≤ x := by simp [regsUpTo]

/-! ## The next value of each piece of state -/

/-- The register writes of an instruction, in order (R29, R130). -/
def State.regWrites (s : State) : Instr → List (Reg × Byte)
  | .ldImm x nn => [(x, nn)]
  | .addImm x nn => [(x, s.reg x + nn)]
  | .ldReg x y => [(x, s.reg y)]
  | .orReg x y => [(x, s.reg x ||| s.reg y)]
  | .andReg x y => [(x, s.reg x &&& s.reg y)]
  | .xorReg x y => [(x, s.reg x ^^^ s.reg y)]
  | .addReg x y => [(x, s.reg x + s.reg y), (Reg.vf, flagByte (carryOut (s.reg x) (s.reg y)))]
  | .subReg x y => [(x, s.reg x - s.reg y), (Reg.vf, flagByte (noBorrow (s.reg x) (s.reg y)))]
  | .subnReg x y => [(x, s.reg y - s.reg x), (Reg.vf, flagByte (noBorrow (s.reg y) (s.reg x)))]
  | .shr x y => [(x, s.shiftOperand x y >>> 1), (Reg.vf, flagByte (shiftedOutRight (s.shiftOperand x y)))]
  | .shl x y => [(x, s.shiftOperand x y <<< 1), (Reg.vf, flagByte (shiftedOutLeft (s.shiftOperand x y)))]
  | .rnd x nn => [(x, s.rnd &&& nn)]
  | .drw x y n => [(Reg.vf, flagByte (drawPixels s.fb (s.spriteOf x y n)).2)]
  | .ldVxDt x => [(x, s.dt)]
  | .loadRegs x => (regsUpTo x).map fun r => (r, s.mem.read (s.baseAddr + r.val))
  | _ => []

/-- I after an instruction (R13). -/
def State.nextI (s : State) : Instr → Word
  | .ldI nnn => nnn.setWidth 16
  | .addI x => s.i + (s.reg x).setWidth 16
  | .ldF x => s.fontAddress (s.reg x)
  | .storeRegs x | .loadRegs x => (s.stepI x).i
  | _ => s.i

/-- What an instruction does with PC (R14, R85). -/
def State.pcAction (s : State) : Instr → PcAction
  | .ret => .jump (s.stk[s.sp.val - 1]'(by omega))
  | .jp nnn | .call nnn => .jump (nnn.setWidth 16)
  | .jpV0 nnn => .jump (nnn.setWidth 16 + (s.reg 0).setWidth 16)
  | .seImm x nn => skipIf (s.reg x = nn)
  | .sneImm x nn => skipIf (s.reg x ≠ nn)
  | .seReg x y => skipIf (s.reg x = s.reg y)
  | .sneReg x y => skipIf (s.reg x ≠ s.reg y)
  | .skp x => skipIf (s.keys.getLsbD (s.reg x).toNat)
  | .sknp x => skipIf (!s.keys.getLsbD (s.reg x).toNat)
  | .ldVxK _ => .hold
  | _ => .advance

/-- SP after an instruction that raises no error (R15). -/
def State.nextSp (s : State) : Instr → Fin 17
  | .ret => ⟨s.sp.val - 1, by omega⟩
  | .call _ => if h : s.sp.val < 16 then ⟨s.sp.val + 1, by omega⟩ else s.sp
  | _ => s.sp

/-- The stack after an instruction that raises no error (R15). -/
def State.nextStk (s : State) : Instr → Vector Word 16
  | .call _ => if h : s.sp.val < 16 then s.stk.set s.sp.val (s.pc + 2) else s.stk
  | _ => s.stk

/-- DT after an instruction (R16). -/
def State.nextDt (s : State) : Instr → Byte
  | .ldDtVx x => s.reg x
  | _ => s.dt

/-- ST after an instruction (R17). -/
def State.nextSt (s : State) : Instr → Byte
  | .ldStVx x => s.reg x
  | _ => s.st

/-- Memory after an instruction that raises no error (R18). -/
def State.nextMem (s : State) : Instr → Memory
  | .ldB x => s.mem.storeBytes s.baseAddr (bcdDigits (s.reg x))
  | .storeRegs x => s.mem.storeBytes s.baseAddr (s.regRange x)
  | _ => s.mem

/-- The frame buffer after an instruction that raises no error (R19). -/
def State.nextFb (s : State) : Instr → FrameBuffer
  | .cls => FrameBuffer.clear
  | .drw x y n => (drawPixels s.fb (s.spriteOf x y n)).1
  | _ => s.fb

/-- The state whose MODE, WX and KPREV are those after an instruction that raises no error (R21 to R23). -/
def State.waitEntered (s : State) : Instr → State
  | .ldVxK x => s.enterWait x
  | _ => s

/-- The state after an instruction that raises no error. -/
def State.completed (s : State) (i : Instr) : State :=
  { s with
    v := (s.writeAll (s.regWrites i)).v
    i := s.nextI i
    pc := (s.pcAction i).newPc s.pc
    sp := s.nextSp i
    stk := s.nextStk i
    dt := s.nextDt i
    st := s.nextSt i
    mem := s.nextMem i
    fb := s.nextFb i
    mode := (s.waitEntered i).mode
    wx := (s.waitEntered i).wx
    kprev := (s.waitEntered i).kprev
    result := some (s.pcAction i).tickResult }

/-- A completed instruction's register: what the writes leave. -/
theorem State.completed_reg (s : State) (i : Instr) (r : Reg) :
    (s.completed i).reg r = (s.writeAll (s.regWrites i)).reg r := rfl

/-! ## The tie to the model -/

/-- An access through I, by the spec's table of access errors (R181). -/
theorem State.throughI_eq (s t : State) (len : Nat) :
    s.throughI len t = (s.accessError len).elim t s.raise := by
  rw [State.accessError_eq]
  cases h : rangeExists s.baseAddr len with
  | true => exact State.throughI_ok h
  | false => exact State.throughI_error h

/-- The key of a register, by the spec's table of key errors (R167, R181). -/
theorem State.withKey_eq (s : State) (x : Reg) (t : Bool → State) :
    s.withKey x t = (s.keyError x).elim (t (s.keys.getLsbD (s.reg x).toNat)) s.raise := by
  unfold State.keyError
  by_cases h : 0x0F < (s.reg x).toNat
  · rw [if_pos h, State.withKey_error h]; rfl
  · rw [if_neg h, State.withKey_ok (by omega)]; rfl

/-- RET takes the newest entry, or raises when there is none (R100, R183). -/
theorem execRet_eq (s : State) : execRet s = .next ((s.errorOf .ret).elim (s.completed .ret) s.raise) := by
  by_cases h : s.sp.val = 0
  · simp [execRet, State.errorOf, State.pop_empty h, h, Except.map]
  · rw [execRet, State.pop_ok h, State.errorOf, if_neg h]; rfl

/-- CALL pushes the address after it, or raises when the stack is full (R102, R182). -/
theorem execCall_eq (nnn : Nnn) (s : State) :
    execCall nnn s = .next ((s.errorOf (.call nnn)).elim (s.completed (.call nnn)) s.raise) := by
  by_cases h : s.sp.val = 16
  · simp [execCall, State.errorOf, State.push_full h, h, Except.map]
  · have hlt : s.sp.val < 16 := by omega
    rw [execCall, State.push_ok hlt, State.errorOf, if_neg h]
    simp only [Option.elim, State.completed, State.nextSp, State.nextStk, dif_pos hlt]
    rfl

/-- The register file after FX65, as writes in order (R174). -/
theorem State.loadRange_v (s : State) (x : Reg) :
    (s.loadRange s.baseAddr x).v = (s.writeAll (s.regWrites (.loadRegs x))).v :=
  State.v_ext fun r => by
    rw [State.reg_loadRange, State.regWrites, State.reg_writeAll_map]
    simp only [mem_regsUpTo]

/-- FX65 loads the range, then steps I (R174). -/
theorem State.completed_loadRegs (s : State) (x : Reg) :
    ((s.loadRange s.baseAddr x).stepI x).retire .advance = s.completed (.loadRegs x) := by
  simp only [State.completed, ← State.loadRange_v, State.nextI, State.stepI_eq_setI]
  rfl

/-- FX55 stores the range, then steps I (R173). -/
theorem State.completed_storeRegs (s : State) (x : Reg) :
    ((s.setMem (s.mem.storeBytes s.baseAddr (s.regRange x))).stepI x).retire .advance =
      s.completed (.storeRegs x) := by
  simp only [State.completed, State.nextI, State.stepI_eq_setI]
  rfl

/-- Every instruction raises the error of the spec's tables, or completes (R85, R186). -/
theorem exec_eq (i : Instr) (s : State) : exec i s = .next ((s.errorOf i).elim (s.completed i) s.raise) := by
  cases i with
  | ret => exact execRet_eq s
  | call nnn => exact execCall_eq nnn s
  | drw x y n => exact congrArg _ (State.throughI_eq ..)
  | skp x => exact congrArg _ (State.withKey_eq ..)
  | sknp x => exact congrArg _ (State.withKey_eq ..)
  | ldB x => exact congrArg _ (State.throughI_eq ..)
  | storeRegs x => rw [← State.completed_storeRegs]; exact congrArg _ (State.throughI_eq ..)
  | loadRegs x => rw [← State.completed_loadRegs]; exact congrArg _ (State.throughI_eq ..)
  | _ => rfl

/-- What an instruction can do: raise its error, or complete. -/
theorem exec_cases {i : Instr} {s t : State} (h : exec i s = .next t) :
    (∃ e, s.errorOf i = some e ∧ t = s.raise e) ∨ (s.errorOf i = none ∧ t = s.completed i) := by
  rw [exec_eq, Host.Outcome.next.injEq] at h
  cases he : s.errorOf i with
  | none => rw [he] at h; exact .inr ⟨rfl, h.symm⟩
  | some e => rw [he] at h; exact .inl ⟨e, rfl, h.symm⟩

/-! ## What a step can do, by MODE -/

/-- A step in RUNNING raises the error of its fetch or of its instruction, skips an Unknown word, or completes an
instruction (R83 to R87). -/
theorem step_running_cases {s t : State} (hm : s.mode = .running) (h : step s = .next t) :
    (∃ e, t = s.beginTick.raise e ∧
      (s.fetchWord = .error e ∨ ∃ i, s.fetchedInstr = some i ∧ s.beginTick.errorOf i = some e)) ∨
    (∃ w, s.fetchWord = .ok w ∧ decodeWord w = none ∧ t = s.beginTick.skipUnknown w) ∨
    (∃ i, s.fetchedInstr = some i ∧ s.beginTick.errorOf i = none ∧ t = s.beginTick.completed i) := by
  rw [step, State.tick_running (s := s.beginTick) hm] at h
  obtain ⟨e, hf, hr⟩ | ⟨w, hf, hd, hr⟩ | ⟨i, hf, hr⟩ := s.beginTick.runTick_cases
  · cases hr.symm.trans h
    exact .inl ⟨e, rfl, .inl hf⟩
  · cases hr.symm.trans h
    exact .inr (.inl ⟨w, hf, hd, rfl⟩)
  · obtain ⟨e, he, ht⟩ | ⟨he, ht⟩ := exec_cases (hr.symm.trans h)
    · exact .inl ⟨e, ht, .inr ⟨i, hf, he⟩⟩
    · exact .inr (.inr ⟨i, hf, he, ht⟩)

/-- A step in RUNNING answers a next state. -/
theorem step_running_next {s : State} (hm : s.mode = .running) : ∃ t, step s = .next t := by
  rw [step, State.tick_running (s := s.beginTick) hm]
  obtain ⟨e, _, hr⟩ | ⟨w, _, _, hr⟩ | ⟨i, _, hr⟩ := s.beginTick.runTick_cases
  · exact ⟨_, hr⟩
  · exact ⟨_, hr⟩
  · exact ⟨_, hr.trans (exec_eq ..)⟩

/-- A step in WAIT_KEY ends the wait on the least new key, or keeps waiting when no key is new (R88). -/
theorem step_waitKey_cases {s t : State} (hm : s.mode = .waitKey) (h : step s = .next t) :
    (∃ k, leastKey s.beginTick.newKeys = some k ∧ t = (s.beginTick.leaveWait k).retire .advance) ∨
    (leastKey s.beginTick.newKeys = none ∧ t = s.beginTick.keepWaiting) := by
  cases (step_waitKey hm).symm.trans h
  exact State.waitTick_cases _

/-- A step in FAULT reports the latched error (R89). -/
theorem step_fault {s : State} {e : FaultInfo} (hm : s.mode = .fault) (he : s.faultInfo = some e) :
    step s = .next { s.beginTick with result := some (.fatal e) } := by
  simp [step, State.tick_fault (s := s.beginTick) hm, State.faultTick, he]

/-- A step in FAULT with no latched error stops (log entry 7). -/
theorem step_fault_missing {s : State} (hm : s.mode = .fault) (he : s.faultInfo = none) :
    step s = .fault .faultInfoMissing := by
  simp [step, State.tick_fault (s := s.beginTick) hm, State.faultTick, he]

/-- A step in FAULT that answers a next state had a latched error. -/
theorem step_fault_cases {s t : State} (hm : s.mode = .fault) (h : step s = .next t) :
    ∃ e, s.faultInfo = some e ∧ t = { s.beginTick with result := some (.fatal e) } := by
  cases he : s.faultInfo with
  | none => cases (step_fault_missing hm he).symm.trans h
  | some e => cases (step_fault hm he).symm.trans h; exact ⟨e, rfl, rfl⟩

end Sys2Proof.Machine

/-! The machine's invariant (`10_state.md` R28). -/

namespace Sys2Proof.Machine

/-! ## The invariant's clauses after a completed instruction -/

/-- An access that raises no error has every byte in memory (R55, R181). -/
theorem State.range_of_accessError_none {s : State} {len : Nat} (h : s.accessError len = none) (hlen : 0 < len) :
    s.baseAddr + len ≤ Config.memSize := by
  rw [State.accessError_eq, ite_eq_left_iff] at h
  have hr : rangeExists s.baseAddr len = true := by
    by_contra hn
    cases h hn
  have := rangeExists_iff.mp hr
  omega

/-- FX33 and FX55 store inside memory when they raise no error, so memory stays canonical. -/
theorem State.wf_nextMem {s : State} {i : Instr} (hwf : s.mem.wf = true) (he : s.errorOf i = none) :
    (s.nextMem i).wf = true := by
  cases i with
  | ldB x => exact Memory.wf_storeBytes hwf (State.range_of_accessError_none (len := 3) he (by decide))
  | storeRegs x =>
    refine Memory.wf_storeBytes hwf ?_
    rw [State.length_regRange]
    exact State.range_of_accessError_none he x.val.succ_pos
  | _ => exact hwf

/-- A live entry of the stack is a return address (R15, R28). -/
def State.LiveEntriesOk (s : State) : Prop :=
  ∀ j : Fin 16, j.val < s.sp.val → 2 ≤ (s.stk[j]).toNat ∧ (s.stk[j]).toNat ≤ 0x1000

theorem skipIf_ne_jump (c : Bool) (target : Word) : skipIf c ≠ .jump target := by
  cases c <;> exact nofun

/-- No instruction jumps above 0xFFF + 0xFF (R14). -/
theorem State.jump_target_le {s : State} {i : Instr} {target : Word} (hstk : s.LiveEntriesOk)
    (he : s.errorOf i = none) (h : s.pcAction i = .jump target) : target.toNat ≤ 0x10FE := by
  cases i with
  | ret =>
    cases h
    have hsp : s.sp.val ≠ 0 := fun h0 => by simp [State.errorOf, h0] at he
    have := (hstk ⟨s.sp.val - 1, by omega⟩ (by simp only; omega)).2
    simp only [Fin.getElem_fin] at this
    omega
  | jp nnn | call nnn =>
    cases h
    have := nnn.isLt
    rw [BitVec.toNat_setWidth_of_le (by decide)]
    omega
  | jpV0 nnn =>
    cases h
    have h1 := nnn.isLt
    have h2 := (s.reg 0).isLt
    rw [BitVec.toNat_add, BitVec.toNat_setWidth_of_le (by decide), BitVec.toNat_setWidth_of_le (by decide)]
    omega
  | seImm x nn | sneImm x nn | seReg x y | sneReg x y | skp x | sknp x => exact absurd h (skipIf_ne_jump _ _)
  | _ => cases h

/-- From a PC that can be fetched, no action but a jump leads above 0x1002. -/
theorem PcAction.newPc_le {action : PcAction} {pc : Word} (hpc : pc.toNat ≤ 0xFFE)
    (hjump : ∀ target, action = .jump target → target.toNat ≤ 0x10FE) : (action.newPc pc).toNat ≤ 0x10FE := by
  cases action with
  | advance => simp only [PcAction.newPc, BitVec.toNat_add, BitVec.reduceToNat]; omega
  | skip => simp only [PcAction.newPc, BitVec.toNat_add, BitVec.reduceToNat]; omega
  | jump target => exact hjump target rfl
  | hold => exact hpc.trans (by decide)

/-- The address after a call is at least 2 and at most 0x1000. -/
theorem return_address_bounds {pc : Word} (hpc : pc.toNat ≤ 0xFFE) :
    2 ≤ (pc + 2).toNat ∧ (pc + 2).toNat ≤ 0x1000 := by
  simp only [BitVec.toNat_add, BitVec.reduceToNat]
  omega

/-- The only new live entry is the return address that CALL pushes (R102). -/
theorem State.liveEntriesOk_completed {s : State} {i : Instr} (hstk : s.LiveEntriesOk) (hpc : s.pc.toNat ≤ 0xFFE) :
    (s.completed i).LiveEntriesOk := by
  cases i with
  | ret => exact fun j hj => hstk j (Nat.lt_of_lt_of_le hj (Nat.sub_le _ _))
  | call nnn =>
    intro j hj
    by_cases hsp : s.sp.val < 16
    · simp only [State.completed, State.nextSp, State.nextStk, dif_pos hsp, Fin.getElem_fin,
        Vector.getElem_set] at hj ⊢
      split
      · exact return_address_bounds hpc
      · exact hstk j (by omega)
    · simp only [State.completed, State.nextSp, State.nextStk, dif_neg hsp] at hj ⊢
      exact hstk j hj
  | _ => exact hstk

/-- A completed instruction leaves MODE, but for FX0A (R21). -/
theorem State.completed_mode (s : State) (i : Instr) :
    (s.completed i).mode = s.mode ∨ ((s.completed i).mode = .waitKey ∧ ∃ x, i = .ldVxK x) := by
  cases i with
  | ldVxK x => exact .inr ⟨rfl, x, rfl⟩
  | _ => exact .inl rfl

/-! ## Every step keeps the invariant -/

/-- The inputs and the timers are in no clause of the invariant (R81, R192). -/
theorem State.Inv.beginTick {s : State} (h : s.Inv) : s.beginTick.Inv := h

/-- A fatal error latches its FAULTINFO with MODE FAULT and leaves the other clauses (R186). -/
theorem State.Inv.raise {s : State} (h : s.Inv) (e : FaultInfo) : (s.raise e).Inv := by
  obtain ⟨hwf, _, hpc, hstk, _⟩ := h
  exact ⟨hwf, by simp, hpc, hstk, nofun⟩

/-- An Unknown word is fetched from a PC of at most 0xFFE, so PC + 2 stays in range (R87). -/
theorem State.Inv.skipUnknown {s : State} {w : Word} (h : s.Inv) (hm : s.mode = .running)
    (hf : s.fetchWord = .ok w) : (s.skipUnknown w).Inv := by
  obtain ⟨hwf, hfault, _, hstk, _⟩ := h
  have hpc : s.pc.toNat + 1 < 0x1000 := State.pc_of_fetchWord hf
  exact ⟨hwf, hfault, PcAction.newPc_le (action := .advance) (by omega) nofun, hstk, by simp [hm]⟩

theorem State.Inv.completed {s : State} {i : Instr} (h : s.Inv) (hm : s.mode = .running)
    (hf : s.fetchedInstr = some i) (he : s.errorOf i = none) : (s.completed i).Inv := by
  obtain ⟨hwf, hfault, _, hstk, _⟩ := h
  have hpc : s.pc.toNat ≤ 0xFFE := by
    have : s.pc.toNat + 1 < 0x1000 := State.pc_of_fetchedInstr hf
    omega
  refine ⟨State.wf_nextMem hwf he, ?_, PcAction.newPc_le hpc fun _ => State.jump_target_le hstk he,
    State.liveEntriesOk_completed hstk hpc, fun hwait => ?_⟩
  · have hnone : s.faultInfo.isSome = false := by simpa [hm] using hfault
    have hmode : (s.completed i).mode ≠ .fault := by
      obtain hk | ⟨hk, _⟩ := s.completed_mode i <;> simp [hk, hm]
    exact iff_of_false hmode (by simp [State.completed, hnone])
  · obtain hk | ⟨_, x, rfl⟩ := s.completed_mode i
    · rw [hk, hm] at hwait; cases hwait
    · exact (State.fetchedInstr_congr rfl rfl).trans hf

/-- The end of a wait is from a PC at an FX0A, so PC + 2 stays in range (R88). -/
theorem State.Inv.endWait {s : State} (h : s.Inv) (hm : s.mode = .waitKey) (k : Key) :
    ((s.leaveWait k).retire .advance).Inv := by
  obtain ⟨hwf, hfault, _, hstk, hwait⟩ := h
  have hpc : s.pc.toNat + 1 < 0x1000 := State.pc_of_fetchedInstr (hwait hm)
  have hnone : s.faultInfo.isSome = false := by simpa [hm] using hfault
  exact ⟨hwf, by simp [hnone], PcAction.newPc_le (action := .advance) (pc := s.pc) (by omega) nofun, hstk, nofun⟩

/-- KPREV and the tick's result are in no clause of the invariant (R88). -/
theorem State.Inv.keepWaiting {s : State} (h : s.Inv) : s.keepWaiting.Inv := h

/-- Settles O22: by MODE, each thing that a step can do keeps every clause. -/
theorem stepKeepsTheInvariant : Obligations.StepKeepsTheInvariant := by
  intro s t hinv hstep
  have hb : s.beginTick.Inv := hinv.beginTick
  cases hm : s.mode with
  | running =>
    obtain ⟨e, rfl, _⟩ | ⟨w, hf, _, rfl⟩ | ⟨i, hf, he, rfl⟩ := step_running_cases hm hstep
    · exact hb.raise e
    · exact hb.skipUnknown hm hf
    · exact hb.completed hm hf he
  | waitKey =>
    obtain ⟨k, _, rfl⟩ | ⟨_, rfl⟩ := step_waitKey_cases hm hstep
    · exact hb.endWait hm k
    · exact hb.keepWaiting
  | fault =>
    obtain ⟨e, _, rfl⟩ := step_fault_cases hm hstep
    exact hb

/-- Settles O23: the timers are in no clause, and a load that succeeds is a write inside memory. -/
theorem hostOperationsKeepTheInvariant : Obligations.HostOperationsKeepTheInvariant := by
  intro s hinv
  refine ⟨hinv, fun a b t hm hload => ?_⟩
  obtain ⟨hwf, hfault, hpc, hstk, _⟩ := hinv
  unfold State.loadWrite at hload
  split at hload
  · cases hload
  · split at hload
    · cases hload
      exact ⟨Memory.wf_write hwf ‹_›, hfault, hpc, hstk, by simp [hm]⟩
    · cases hload

/-! ## MODE -/

/-- Settles O24: by MODE, from what a step can do. -/
theorem modeTransitionsAreThoseOfR21 : Obligations.ModeTransitionsAreThoseOfR21 := by
  refine ⟨fun s t hstep => ⟨fun hm hwait => ?_, fun hm hfault => ?_, fun hm => ?_, fun hm => ?_⟩, fun _ => rfl⟩
  · obtain ⟨e, rfl, _⟩ | ⟨w, _, _, rfl⟩ | ⟨i, hf, _, rfl⟩ := step_running_cases hm hstep
    · cases hwait
    · cases hm.symm.trans hwait
    · obtain hk | ⟨_, x, rfl⟩ := s.beginTick.completed_mode i
      · cases hm.symm.trans (hk.symm.trans hwait)
      · exact ⟨x, hf⟩
  · obtain ⟨e, rfl, hsource⟩ | ⟨w, _, _, rfl⟩ | ⟨i, _, _, rfl⟩ := step_running_cases hm hstep
    · exact ⟨e, rfl, hsource⟩
    · cases hm.symm.trans hfault
    · obtain hk | ⟨hk, _⟩ := s.beginTick.completed_mode i
      · cases hm.symm.trans (hk.symm.trans hfault)
      · cases hk.symm.trans hfault
  · obtain ⟨k, hk, rfl⟩ | ⟨hk, rfl⟩ := step_waitKey_cases hm hstep
    · have hnew := leastKey_down hk
      rw [State.newKeys_getLsbD, Bool.and_eq_true, Bool.not_eq_true'] at hnew
      exact .inl ⟨rfl, k, hnew⟩
    · exact .inr ⟨hm, State.leastKey_newKeys_none_iff.mp hk⟩
  · obtain ⟨e, _, rfl⟩ := step_fault_cases hm hstep
    exact hm

/-- Settles O19: RUNNING and WAIT_KEY always answer, and FAULT answers when an error is latched. -/
theorem stepStopsOnlyWithoutALatchedError : Obligations.StepStopsOnlyWithoutALatchedError := by
  intro s
  refine ⟨fun ⟨t, hstep⟩ ⟨hm, he⟩ => ?_, fun h => ?_⟩
  · cases (step_fault_missing hm he).symm.trans hstep
  · cases hm : s.mode with
    | running => exact step_running_next hm
    | waitKey => exact ⟨_, step_waitKey hm⟩
    | fault =>
      obtain ⟨e, he⟩ := Option.ne_none_iff_exists'.mp fun he => h ⟨hm, he⟩
      exact ⟨_, step_fault hm he⟩

/-! ## Reset -/

/-- Settles O1: each value is the reset state's own; the display reads as a cleared one. -/
theorem resetStateIsTheTableOfR27 : Obligations.ResetStateIsTheTableOfR27 := by
  refine ⟨fun p => ⟨fun r => ?_, rfl, rfl, rfl, fun j => ?_, rfl, rfl, fun _ => rfl,
    fun j => FrameBuffer.fbRead_clear _ _, rfl, rfl, rfl, rfl, rfl⟩, rfl, rfl⟩
  · simp [State.reg]
  · simp

/-- A launch state with a PC that a fetch can start from and a canonical memory has the invariant (R28, R212). -/
theorem State.inv_launch {p : Params} {m : Memory} (hp : p.legal = true) (hm : m.wf = true) :
    (State.launch p m).Inv := by
  have horigin : p.origin.toNat ≤ 0xFFE := by
    simp only [Params.legal, Bool.and_eq_true, decide_eq_true_eq] at hp
    exact hp.1
  exact ⟨hm, iff_of_false nofun nofun, horigin.trans (by decide), fun j hj => absurd hj (Nat.not_lt_zero _), nofun⟩

/-- Settles O21: after a reset every clause is that of a launch with nothing in memory. -/
theorem invariantHoldsAtResetAndLaunch : Obligations.InvariantHoldsAtResetAndLaunch :=
  ⟨State.inv_launch (p := Params.default) (m := []) rfl rfl, fun _ _ => State.inv_launch,
    fun _ _ hp => State.inv_launch (m := []) hp rfl⟩

end Sys2Proof.Machine

/-! The ports of the register file and the writers of each piece of state (`10_state.md` R12 to R29). -/

namespace Sys2Proof.Machine

/-! ## Write ports -/

/-- The registers that an instruction writes are those of R29. -/
theorem State.map_fst_regWrites (s : State) (i : Instr) : (s.regWrites i).map Prod.fst = instrWrites i := by
  cases i with
  | loadRegs x => simp [State.regWrites, instrWrites, Function.comp_def]
  | _ => rfl

/-- Settles O26: a fatal error writes no register, and a completed instruction those of its list. -/
theorem registersAreWrittenOnlyByTheirPorts : Obligations.RegistersAreWrittenOnlyByTheirPorts := by
  intro i s t hexec r hr
  obtain ⟨e, _, rfl⟩ | ⟨_, rfl⟩ := exec_cases hexec
  · rfl
  · rw [← s.map_fst_regWrites] at hr
    exact State.reg_writeAll_of_notMem hr

/-- The last register write of an instruction that writes a flag is the flag (R12, R130). -/
theorem State.regWrites_flag {s : State} {i : Instr} (h : instrWritesFlag i = true) :
    ∃ first flag, s.regWrites i = first ++ [(Reg.vf, flagByte flag)] := by
  cases i with
  | addReg x y | subReg x y | subnReg x y | shr x y | shl x y => exact ⟨[_], _, rfl⟩
  | drw x y n => exact ⟨[], _, rfl⟩
  | _ => cases h

/-- Settles O28: VF is a written register or keeps its value; and a flag is the last write of the six. -/
theorem vfIsWrittenAsAFlagByTheSixOnly : Obligations.VfIsWrittenAsAFlagByTheSixOnly := by
  intro i s t hexec
  refine ⟨fun _ hvf => registersAreWrittenOnlyByTheirPorts i s t hexec _ hvf, fun hflag he => ?_⟩
  obtain ⟨e, he', _⟩ | ⟨_, rfl⟩ := exec_cases hexec
  · rw [he] at he'; cases he'
  · obtain ⟨first, flag, hw⟩ := State.regWrites_flag (s := s) hflag
    rw [State.completed_reg, hw, State.writeAll_append]
    cases flag with
    | true => exact .inr (State.reg_writeReg_same ..)
    | false => exact .inl (State.reg_writeReg_same ..)

/-! ## Read ports -/

/-- The state with another register file. -/
def State.withRegs (s : State) (v : Vector Byte 16) : State := { s with v := v }

section

variable {s : State} {v : Vector Byte 16} {i : Instr}

/-- The register file `v` agrees with the state's on the registers that the instruction reads (R29). -/
def State.AgreesOnReads (s : State) (v : Vector Byte 16) (i : Instr) : Prop :=
  ∀ r ∈ instrReads s.params.shiftSource i, (s.withRegs v).reg r = s.reg r

theorem State.errorOf_withRegs (h : s.AgreesOnReads v i) : (s.withRegs v).errorOf i = s.errorOf i := by
  cases i with
  | skp x | sknp x => simp only [State.errorOf, State.keyError, h x (by simp [instrReads])]
  | _ => rfl

theorem State.nextI_withRegs (h : s.AgreesOnReads v i) : (s.withRegs v).nextI i = s.nextI i := by
  cases i with
  | addI x | ldF x => simp only [State.nextI, h x (by simp [instrReads])]; rfl
  | storeRegs x | loadRegs x => simp only [State.nextI, State.stepI_i]; rfl
  | _ => rfl

theorem State.pcAction_withRegs (h : s.AgreesOnReads v i) : (s.withRegs v).pcAction i = s.pcAction i := by
  cases i with
  | seImm x _ | sneImm x _ => simp only [State.pcAction, h x (by simp [instrReads])]
  | seReg x y | sneReg x y => simp only [State.pcAction, h x (by simp [instrReads]), h y (by simp [instrReads])]
  | skp x | sknp x => simp only [State.pcAction, h x (by simp [instrReads])]; rfl
  | jpV0 _ => simp only [State.pcAction, h 0 (by simp [instrReads])]
  | _ => rfl

theorem State.nextDt_withRegs (h : s.AgreesOnReads v i) : (s.withRegs v).nextDt i = s.nextDt i := by
  cases i with
  | ldDtVx x => exact h x (by simp [instrReads])
  | _ => rfl

theorem State.nextSt_withRegs (h : s.AgreesOnReads v i) : (s.withRegs v).nextSt i = s.nextSt i := by
  cases i with
  | ldStVx x => exact h x (by simp [instrReads])
  | _ => rfl

/-- The bytes V[0]..V[x] are the same when those registers are. -/
theorem State.regRange_withRegs {x : Reg} (h : ∀ r ≤ x, (s.withRegs v).reg r = s.reg r) :
    (s.withRegs v).regRange x = s.regRange x := by
  refine List.ext_getElem (by simp) fun j hj hj' => ?_
  rw [State.length_regRange] at hj
  rw [State.getElem_regRange, State.getElem_regRange]
  exact h _ (Fin.le_def.mpr (by simp only; omega))

theorem State.nextMem_withRegs (h : s.AgreesOnReads v i) : (s.withRegs v).nextMem i = s.nextMem i := by
  cases i with
  | ldB x => simp only [State.nextMem, h x (by simp [instrReads])]; rfl
  | storeRegs x =>
    have hrange := State.regRange_withRegs fun r hr => h r (mem_regsUpTo.mpr hr)
    simp only [State.nextMem, hrange]
    rfl
  | _ => rfl

/-- The sprite's pixels depend on V[x] and V[y] only. -/
theorem State.spriteOf_withRegs {x y : Reg} {n : RowCount} (h : s.AgreesOnReads v (.drw x y n)) :
    (s.withRegs v).spriteOf x y n = s.spriteOf x y n := by
  simp only [State.spriteOf, h x (by simp [instrReads]), h y (by simp [instrReads])]
  rfl

theorem State.nextFb_withRegs (h : s.AgreesOnReads v i) : (s.withRegs v).nextFb i = s.nextFb i := by
  cases i with
  | drw x y n => simp only [State.nextFb, State.spriteOf_withRegs h]; rfl
  | _ => rfl

/-- The shifted register is the one that SHIFT_SOURCE names (R137, R139). -/
theorem State.shiftOperand_withRegs {x y : Reg} (h : s.AgreesOnReads v (.shr x y)) :
    (s.withRegs v).shiftOperand x y = s.shiftOperand x y := by
  have hparams : (s.withRegs v).params = s.params := rfl
  unfold State.AgreesOnReads instrReads at h
  unfold State.shiftOperand
  rw [hparams]
  cases hs : s.params.shiftSource with
  | vy => exact h y (by simp [hs])
  | vx => exact h x (by simp [hs])

/-- An instruction writes the same values when the registers it reads are the same. -/
theorem State.regWrites_withRegs (h : s.AgreesOnReads v i) : (s.withRegs v).regWrites i = s.regWrites i := by
  cases i with
  | addImm x _ => simp only [State.regWrites, h x (by simp [instrReads])]
  | ldReg x y => simp only [State.regWrites, h y (by simp [instrReads])]
  | orReg x y | andReg x y | xorReg x y | addReg x y | subReg x y | subnReg x y =>
    simp only [State.regWrites, h x (by simp [instrReads]), h y (by simp [instrReads])]
  | shr x y | shl x y => simp only [State.regWrites, State.shiftOperand_withRegs h]
  | drw x y n => simp only [State.regWrites, State.spriteOf_withRegs h]; rfl
  | _ => rfl

/-- A completed instruction's next states agree in everything but the register file. -/
theorem State.completed_withRegs (h : s.AgreesOnReads v i) :
    (s.withRegs v).completed i = (s.completed i).withRegs ((s.withRegs v).completed i).v := by
  have hwait : (s.withRegs v).waitEntered i = (s.waitEntered i).withRegs v := by cases i <;> rfl
  simp only [State.completed, State.nextI_withRegs h, State.pcAction_withRegs h, State.nextDt_withRegs h,
    State.nextSt_withRegs h, State.nextMem_withRegs h, State.nextFb_withRegs h, hwait]
  rfl

end

/-- Settles O27: the two states raise the same error, or complete with the same register writes and the same value of
every other piece. -/
theorem registersAreReadOnlyByTheirPorts : Obligations.RegistersAreReadOnlyByTheirPorts := by
  intro i s v hreads t hexec
  have hagree : s.AgreesOnReads v i := hreads
  have herr : (s.withRegs v).errorOf i = s.errorOf i := State.errorOf_withRegs hagree
  refine ⟨_, exec_eq i (s.withRegs v), ?_⟩
  rw [herr]
  obtain ⟨e, he, rfl⟩ | ⟨he, rfl⟩ := exec_cases hexec
  · rw [he]
    exact ⟨rfl, nofun⟩
  · rw [he]
    refine ⟨State.completed_withRegs hagree, fun _ r hr => ?_⟩
    rw [← s.map_fst_regWrites] at hr
    change ((s.withRegs v).completed i).reg r = (s.completed i).reg r
    rw [State.completed_reg, State.completed_reg, State.regWrites_withRegs hagree]
    exact State.reg_writeAll_of_mem hr

/-! ## The writers of each piece (R13, R15 to R19, R22, R23) -/

section

variable {s : State} {i : Instr}

theorem State.nextI_writer (h : s.nextI i ≠ s.i) :
    (∃ a, i = .ldI a) ∨ (∃ x, i = .addI x) ∨ (∃ x, i = .ldF x) ∨
      (s.params.loadStoreIInc = true ∧ ((∃ x, i = .storeRegs x) ∨ ∃ x, i = .loadRegs x)) := by
  have hinc : ∀ x, (s.stepI x).i ≠ s.i → s.params.loadStoreIInc = true := fun x hx => by
    by_contra hn
    simp [hn] at hx
  cases i with
  | ldI a => exact .inl ⟨a, rfl⟩
  | addI x => exact .inr (.inl ⟨x, rfl⟩)
  | ldF x => exact .inr (.inr (.inl ⟨x, rfl⟩))
  | storeRegs x => exact .inr (.inr (.inr ⟨hinc x h, .inl ⟨x, rfl⟩⟩))
  | loadRegs x => exact .inr (.inr (.inr ⟨hinc x h, .inr ⟨x, rfl⟩⟩))
  | _ => exact absurd rfl h

theorem State.nextStack_writer (h : s.nextSp i ≠ s.sp ∨ s.nextStk i ≠ s.stk) : i = .ret ∨ ∃ a, i = .call a := by
  cases i with
  | ret => exact .inl rfl
  | call a => exact .inr ⟨a, rfl⟩
  | _ => exact h.elim (absurd rfl) (absurd rfl)

theorem State.nextDt_writer (h : s.nextDt i ≠ s.dt) : ∃ x, i = .ldDtVx x := by
  cases i with
  | ldDtVx x => exact ⟨x, rfl⟩
  | _ => exact absurd rfl h

theorem State.nextSt_writer (h : s.nextSt i ≠ s.st) : ∃ x, i = .ldStVx x := by
  cases i with
  | ldStVx x => exact ⟨x, rfl⟩
  | _ => exact absurd rfl h

theorem State.nextMem_writer (h : s.nextMem i ≠ s.mem) : (∃ x, i = .ldB x) ∨ ∃ x, i = .storeRegs x := by
  cases i with
  | ldB x => exact .inl ⟨x, rfl⟩
  | storeRegs x => exact .inr ⟨x, rfl⟩
  | _ => exact absurd rfl h

theorem State.nextFb_writer (h : s.nextFb i ≠ s.fb) : i = .cls ∨ ∃ x y n, i = .drw x y n := by
  cases i with
  | cls => exact .inl rfl
  | drw x y n => exact .inr ⟨x, y, n, rfl⟩
  | _ => exact absurd rfl h

theorem State.waitEntered_writer (h : (s.waitEntered i).wx ≠ s.wx ∨ (s.waitEntered i).kprev ≠ s.kprev) :
    ∃ x, i = .ldVxK x := by
  cases i with
  | ldVxK x => exact ⟨x, rfl⟩
  | _ => exact h.elim (absurd rfl) (absurd rfl)

end

/-- Settles O29: a fatal error changes none of these pieces, and a completed instruction each one by its writers. -/
theorem eachPieceOfStateHasItsOwnWriters : Obligations.EachPieceOfStateHasItsOwnWriters := by
  intro i s t hexec
  obtain ⟨e, _, rfl⟩ | ⟨_, rfl⟩ := exec_cases hexec
  · simp
  · exact ⟨State.nextI_writer, State.nextStack_writer, State.nextDt_writer, State.nextSt_writer,
      State.nextMem_writer, State.nextFb_writer, State.waitEntered_writer, rfl, rfl, rfl, rfl, rfl⟩

end Sys2Proof.Machine

/-! Memory, its errors, and the fetch of what a store wrote (`20_memory.md`, `60_exceptions.md`). -/

namespace Sys2Proof.Machine

/-! ## MemRead and MemWrite -/

/-- MemRead of an address depends on the byte there only (R41). -/
theorem Memory.memRead_congr {m m' : Memory} {a : Nat} (h : m'.read a = m.read a) : m'.memRead a = m.memRead a := by
  rw [Memory.memRead, Memory.memRead, h]

/-- Settles O11: inside memory by the laws of one byte written, above 0xFFF by the range check. -/
theorem memReadAndMemWriteAreRangeChecked : Obligations.MemReadAndMemWriteAreRangeChecked := by
  intro m a b hwf
  refine ⟨fun ha => ?_, fun ha => ⟨Memory.memRead_error ha, Memory.memWrite_error ha⟩⟩
  have hlt : a < Config.memSize := Nat.lt_succ_of_le ha
  refine ⟨Memory.memRead_ok hlt, m.write a b, Memory.memWrite_ok hlt, ?_, fun a' hne => ?_, Memory.wf_write hwf hlt⟩
  · rw [Memory.memRead_ok hlt, Memory.read_write_same hwf]
  · exact Memory.memRead_congr (Memory.read_write_ne hne)

/-- Settles O12: above 0xFFF a canonical memory holds nothing, so the two read alike everywhere. -/
theorem canonicalMemoriesWithEqualBytesAreEqual : Obligations.CanonicalMemoriesWithEqualBytesAreEqual := by
  intro m m' hm hm' hread
  refine Memory.eq_of_read_eq hm hm' fun a => ?_
  rcases Nat.lt_or_ge 0xFFF a with ha | ha
  · rw [Memory.read_outside hm ha, Memory.read_outside hm' ha]
  · exact hread a ha

/-! ## Errors of the tables -/

theorem exec_of_errorOf_some {i : Instr} {s : State} {e : FaultInfo} (h : s.errorOf i = some e) :
    exec i s = .next (s.raise e) := by
  rw [exec_eq, h]; rfl

theorem exec_of_errorOf_none {i : Instr} {s : State} (h : s.errorOf i = none) : exec i s = .next (s.completed i) := by
  rw [exec_eq, h]; rfl

/-- What R186 says a fatal error leaves is what raising it does. -/
theorem State.raise_eq_afterFatal (s : State) (e : FaultInfo) : s.raise e = s.afterFatal e.kind e.payload := rfl

/-- A completed instruction enters WAIT_KEY when it is FX0A, and else keeps MODE (R21, R163). -/
theorem State.completed_mode_exact (s : State) (i : Instr) :
    ((¬∃ x, i = .ldVxK x) ∧ (s.completed i).mode = s.mode) ∨
      ((∃ x, i = .ldVxK x) ∧ (s.completed i).mode = .waitKey) := by
  cases i with
  | ldVxK x => exact .inr ⟨⟨x, rfl⟩, rfl⟩
  | _ => exact .inl ⟨fun ⟨_, h⟩ => (nomatch h), rfl⟩

/-- Settles O25: an instruction raises the error of the tables, or completes. -/
theorem fatalErrorsAreExactAndPrecise : Obligations.FatalErrorsAreExactAndPrecise := by
  intro i s hm
  refine ⟨fun e he => ?_, fun he => ⟨_, exec_of_errorOf_none he, rfl, hm ▸ s.completed_mode_exact i⟩⟩
  rw [exec_of_errorOf_some he, State.raise_eq_afterFatal]

/-- An access whose every byte is in memory raises no error (R55, R181). -/
theorem State.accessError_none {s : State} {len : Nat} (h : s.baseAddr + len ≤ Config.memSize) :
    s.accessError len = none := by
  rw [State.accessError_eq, if_pos (rangeExists_iff.mpr (.inr h))]

/-! ## Memory after FX55 and FX33 -/

/-- The decimal digits of a byte, hundreds first (R172). -/
theorem toNat_bcdDigits (b : Byte) (j : Fin 3) :
    ((bcdDigits b)[j.val]'j.isLt).toNat = b.toNat / 10 ^ (2 - j.val) % 10 := by
  have hb := b.isLt
  match j with
  | 0 => change b.toNat / 100 % 256 = b.toNat / 100 % 10; omega
  | 1 => change b.toNat / 10 % 10 % 256 = b.toNat / 10 % 10; omega
  | 2 => change b.toNat % 10 % 256 = b.toNat / 1 % 10; omega

section

variable {s : State} {x : Reg} {a : Nat}

/-- FX55 puts each of V[0]..V[x] at its own address (R173). -/
theorem State.read_nextMem_storeRegs {r : Reg} (hwf : s.mem.wf = true) (hrange : s.baseAddr + x.val ≤ 0xFFF)
    (hr : r ≤ x) (ha : s.baseAddr + r.val = a) : (s.nextMem (.storeRegs x)).read a = s.reg r := by
  subst ha
  have hlen : s.baseAddr + (s.regRange x).length ≤ Config.memSize := by
    rw [State.length_regRange]
    exact Nat.succ_le_succ hrange
  have hj : r.val < (s.regRange x).length := by
    rw [State.length_regRange]
    exact Nat.lt_succ_of_le hr
  exact (Memory.read_storeBytes_inside hwf hlen hj).trans (s.getElem_regRange x r.val hj)

/-- FX55 leaves every address outside I..I+x alone (R173). -/
theorem State.read_nextMem_storeRegs_outside (ha : a < s.baseAddr ∨ s.baseAddr + x.val + 1 ≤ a) :
    (s.nextMem (.storeRegs x)).read a = s.mem.read a :=
  Memory.read_storeBytes_outside (by rwa [State.length_regRange])

/-- FX33 puts each decimal digit of V[x] at its own address (R172). -/
theorem State.read_nextMem_ldB {j : Fin 3} (hwf : s.mem.wf = true) (hrange : s.baseAddr + 2 ≤ 0xFFF)
    (ha : s.baseAddr + j.val = a) :
    ((s.nextMem (.ldB x)).read a).toNat = (s.reg x).toNat / 10 ^ (2 - j.val) % 10 := by
  subst ha
  rw [← toNat_bcdDigits]
  exact congrArg _ (Memory.read_storeBytes_inside hwf (Nat.succ_le_succ hrange) j.isLt)

/-- FX33 leaves every address outside I..I+2 alone (R172). -/
theorem State.read_nextMem_ldB_outside (ha : a < s.baseAddr ∨ s.baseAddr + 3 ≤ a) :
    (s.nextMem (.ldB x)).read a = s.mem.read a :=
  Memory.read_storeBytes_outside ha

/-! ## The fetch of the next tick -/

/-- After an instruction that advances, the next fetch reads memory as that instruction left it (R52, R85). -/
theorem State.fetchWord_completed {i : Instr} (hadvance : s.pcAction i = .advance)
    (hpc : (s.pc + 2).toNat ≤ 0xFFE) :
    (s.completed i).beginTick.fetchWord =
      .ok (wordOfBytes ((s.nextMem i).read (s.pc + 2).toNat) ((s.nextMem i).read ((s.pc + 2).toNat + 1))) := by
  have hnext : (s.completed i).pc = s.pc + 2 := by simp only [State.completed, hadvance, PcAction.newPc]
  rw [State.beginTick_fetchWord, State.fetchWord_ok, hnext]
  · rfl
  · rw [hnext]
    exact Nat.lt_succ_of_le (Nat.succ_le_succ hpc)

end

/-- Settles O57: the two bytes of the next fetch are read from memory as the store left it. -/
theorem storesAreSeenByTheNextFetch : Obligations.StoresAreSeenByTheNextFetch := by
  intro x s hwf hpc
  refine ⟨fun hrange => ?_, fun hrange => ?_⟩
  · have herr : s.errorOf (.storeRegs x) = none := State.accessError_none (Nat.succ_le_succ hrange)
    refine ⟨_, _, exec_of_errorOf_none herr, State.fetchWord_completed rfl hpc, ?_⟩
    rw [highByte_wordOfBytes, lowByte_wordOfBytes]
    exact ⟨fun _ => State.read_nextMem_storeRegs hwf hrange, fun _ => State.read_nextMem_storeRegs hwf hrange,
      State.read_nextMem_storeRegs_outside, State.read_nextMem_storeRegs_outside⟩
  · have herr : s.errorOf (.ldB x) = none := State.accessError_none (Nat.succ_le_succ hrange)
    refine ⟨_, _, exec_of_errorOf_none herr, State.fetchWord_completed rfl hpc, ?_⟩
    rw [highByte_wordOfBytes, lowByte_wordOfBytes]
    exact ⟨fun _ => State.read_nextMem_ldB hwf hrange, fun _ => State.read_nextMem_ldB hwf hrange,
      State.read_nextMem_ldB_outside, State.read_nextMem_ldB_outside⟩

end Sys2Proof.Machine

/-! The encoder, the decoder and the opcode map (`30_encoding.md` R61 to R71). -/

namespace Sys2Proof

section

variable {w v : Word} {op n : Nibble} {nn : Byte} {nnn : Nnn} {x y : Reg} {i : Instr}

/-! ## The fixed bits and the operand fields of each format (R61, R71) -/

theorem word_or_right_comm (a b c : Word) : a ||| b ||| c = a ||| c ||| b := by
  rw [BitVec.or_assoc, BitVec.or_comm b, BitVec.or_assoc]

theorem setWidth_nibbleOf (r : Fin 16) : (nibbleOf r).setWidth 16 = BitVec.ofNat 16 r.val :=
  (BitVec.ofNat_toNat 16 (nibbleOf r)).symm

/-- Format NNN is its fixed bits with `nnn` in its field. -/
theorem formatNNN_eq_placeFields : formatNNN op nnn = placeFields (formatNNN op 0) [(.nnn, nnn.toNat)] := by
  simp [formatNNN, placeFields, Field.lowBit, BitVec.ofNat_toNat]

/-- Format XNN is its fixed bits with `x` and `nn` in their fields. -/
theorem formatXNN_eq_placeFields :
    formatXNN op x nn = placeFields (formatXNN op 0 0) [(.x, x.val), (.nn, nn.toNat)] := by
  simp [formatXNN, placeFields, Field.lowBit, setWidth_nibbleOf]

/-- Format XFF is its fixed bits, `nn` among them, with `x` in its field. -/
theorem formatXFF_eq_placeFields :
    formatXNN op x nn = placeFields (formatXNN op 0 nn) [(.x, x.val)] := by
  simp [formatXNN, placeFields, Field.lowBit, setWidth_nibbleOf, word_or_right_comm _ (nn.setWidth 16)]

/-- Format XYN is its fixed bits with `x`, `y` and `n` in their fields. -/
theorem formatXYN_eq_placeFields {c : RowCount} :
    formatXYN op x y (nibbleOf c) = placeFields (formatXYN op 0 0 0) [(.x, x.val), (.y, y.val), (.n, c.val)] := by
  simp [formatXYN, placeFields, Field.lowBit, setWidth_nibbleOf]

/-- Format XYF is its fixed bits, `n` among them, with `x` and `y` in their fields. -/
theorem formatXYF_eq_placeFields :
    formatXYN op x y n = placeFields (formatXYN op 0 0 n) [(.x, x.val), (.y, y.val)] := by
  simp [formatXYN, placeFields, Field.lowBit, setWidth_nibbleOf, word_or_right_comm _ (n.setWidth 16)]

/-- R71: the word of an instruction is its row's fixed bits with the operands in their fields. -/
theorem encode_eq_placeFields (i : Instr) : encode i = placeFields i.row.bits i.fields := by
  cases i with
  | cls | ret => rfl
  | jp | call | ldI | jpV0 => exact formatNNN_eq_placeFields
  | seImm | sneImm | ldImm | addImm | rnd => exact formatXNN_eq_placeFields
  | seReg | ldReg | orReg | andReg | xorReg | addReg | subReg | shr | subnReg | shl | sneReg =>
    exact formatXYF_eq_placeFields
  | drw => exact formatXYN_eq_placeFields
  | skp | sknp | ldVxDt | ldVxK | ldDtVx | ldStVx | addI | ldF | ldB | storeRegs | loadRegs =>
    exact formatXFF_eq_placeFields

/-! ## Decoding what was encoded -/

/-- The word of an instruction decodes to it, with every operand (R64, R71). -/
theorem decodeWord_encode (i : Instr) : decodeWord (encode i) = some i := by
  cases i with
  | cls | ret => rfl
  | jp | call | ldI | jpV0 => simp [encode, decodeWord]
  | seImm | sneImm | ldImm | addImm | rnd => simp [encode, decodeWord]
  | seReg | sneReg | drw => simp [encode, decodeWord]
  | ldReg | orReg | andReg | xorReg | addReg | subReg | shr | subnReg | shl => simp [encode, decodeWord, decodeAlu]
  | skp | sknp => simp [encode, decodeWord, decodeKeySkip]
  | ldVxDt | ldVxK | ldDtVx | ldStVx | addI | ldF | ldB | storeRegs | loadRegs =>
    simp [encode, decodeWord, decodeMisc]

/-- The bytes of an instruction decode to it, and what follows them is left over (R60). -/
theorem decode_encodeBytes (i : Instr) (rest : List Byte) : decode (encodeBytes i ++ rest) = .ok (i, rest) := by
  simp [encodeBytes, decode_pair, decodeWord_encode]

/-! ## Encoding what was decoded -/

/-- A word with operation `op` is the NNN format of `op` and its own `nnn`. -/
theorem formatNNN_of_op (hop : (fieldOp w).toNat = op.toNat) : formatNNN op (fieldNnn w) = w :=
  BitVec.eq_of_toNat_eq hop ▸ formatNNN_fields w

/-- A word with operation `op` is the XNN format of `op` and its own `x` and `nn`. -/
theorem formatXNN_of_op (hop : (fieldOp w).toNat = op.toNat) : formatXNN op (fieldX w).index (fieldNn w) = w :=
  BitVec.eq_of_toNat_eq hop ▸ formatXNN_fields w

/-- A word with operation `op` is the XYN format of `op` and its own `x`, `y` and `n`. -/
theorem formatXYN_of_op (hop : (fieldOp w).toNat = op.toNat) :
    formatXYN op (fieldX w).index (fieldY w).index (fieldN w) = w :=
  BitVec.eq_of_toNat_eq hop ▸ formatXYN_fields w

/-- Format XYN with 0 required for `n` (5XY0, 9XY0). -/
theorem formatXY0_of_op (hop : (fieldOp w).toNat = op.toNat) (hn : fieldN w = 0) :
    formatXYN op (fieldX w).index (fieldY w).index 0 = w :=
  hn ▸ formatXYN_of_op hop

theorem encode_of_decodeAlu (h : decodeAlu x y n = some i) : encode i = formatXYN 0x8 x y n := by
  unfold decodeAlu at h
  split at h
  case h_10 => cases h
  all_goals
    rename_i hn
    cases h
    exact congrArg (formatXYN _ x y) (BitVec.eq_of_toNat_eq hn.symm)

theorem encode_of_decodeKeySkip (h : decodeKeySkip x nn = some i) : encode i = formatXNN 0xE x nn := by
  unfold decodeKeySkip at h
  split at h
  case h_3 => cases h
  all_goals
    rename_i hnn
    cases h
    exact congrArg (formatXNN _ x) (BitVec.eq_of_toNat_eq hnn.symm)

theorem encode_of_decodeMisc (h : decodeMisc x nn = some i) : encode i = formatXNN 0xF x nn := by
  unfold decodeMisc at h
  split at h
  case h_10 => cases h
  all_goals
    rename_i hnn
    cases h
    exact congrArg (formatXNN _ x) (BitVec.eq_of_toNat_eq hnn.symm)

/-- A word that decodes is the encoding of what it decodes to. The split's case `h_k` is the operation k - 1; the
operations of one format share their argument. -/
theorem encode_of_decodeWord (h : decodeWord w = some i) : encode i = w := by
  unfold decodeWord at h
  split at h
  case h_1 =>
    split_ifs at h with hcls hret
    · cases h; exact hcls.symm
    · cases h; exact hret.symm
  case h_2 hop | h_3 hop | h_11 hop | h_12 hop => cases h; exact formatNNN_of_op hop
  case h_4 hop | h_5 hop | h_7 hop | h_8 hop | h_13 hop => cases h; exact formatXNN_of_op hop
  case h_6 hop | h_10 hop =>
    split_ifs at h with hn
    cases h; exact formatXY0_of_op hop hn
  case h_9 hop => exact (encode_of_decodeAlu h).trans (formatXYN_of_op hop)
  case h_14 hop => cases h; exact formatXYN_of_op hop
  case h_15 hop => exact (encode_of_decodeKeySkip h).trans (formatXNN_of_op hop)
  case h_16 hop => exact (encode_of_decodeMisc h).trans (formatXNN_of_op hop)
  case h_17 => cases h

/-! ## The rows of the opcode map (R64, R65) -/

/-- Mask F000 keeps the operation of a word. -/
theorem and_maskOp (w : Word) : w &&& 0xF000 = formatNNN (fieldOp w) 0 := by
  ext j hj; interval_cases j <;> simp [formatNNN, fieldOp]

/-- Mask F00F keeps the operation and `n` of a word. -/
theorem and_maskOpN (w : Word) : w &&& 0xF00F = formatXYN (fieldOp w) 0 0 (fieldN w) := by
  ext j hj; interval_cases j <;> simp [formatXYN, nibbleOf, fieldOp, fieldN]

/-- Mask F0FF keeps the operation and `nn` of a word. -/
theorem and_maskOpNn (w : Word) : w &&& 0xF0FF = formatXNN (fieldOp w) 0 (fieldNn w) := by
  ext j hj; interval_cases j <;> simp [formatXNN, nibbleOf, fieldOp, fieldNn]

/-- The word of an instruction has the fixed bits of the instruction's row. -/
theorem selects_encode (i : Instr) : i.row.selects (encode i) = true := by
  refine decide_eq_true ?_
  cases i with
  | cls | ret => rfl
  | jp | call | ldI | jpV0 => exact (and_maskOp _).trans (congrArg (formatNNN · 0) (fieldOp_formatNNN ..))
  | seImm | sneImm | ldImm | addImm | rnd =>
    exact (and_maskOp _).trans (congrArg (formatNNN · 0) (fieldOp_formatXNN ..))
  | seReg | ldReg | orReg | andReg | xorReg | addReg | subReg | shr | subnReg | shl | sneReg =>
    exact (and_maskOpN _).trans (congrArg₂ (formatXYN · 0 0 ·) (fieldOp_formatXYN ..) (fieldN_formatXYN ..))
  | drw => exact (and_maskOp _).trans (congrArg (formatNNN · 0) (fieldOp_formatXYN ..))
  | skp | sknp | ldVxDt | ldVxK | ldDtVx | ldStVx | addI | ldF | ldB | storeRegs | loadRegs =>
    exact (and_maskOpNn _).trans (congrArg₂ (formatXNN · 0 ·) (fieldOp_formatXNN ..) (fieldNn_formatXNN ..))

/-- A word that decodes has the fixed bits of the row of its instruction. -/
theorem selects_of_decodeWord (h : decodeWord w = some i) : i.row.selects w = true :=
  encode_of_decodeWord h ▸ selects_encode i

theorem row_mem_opcodeRows (i : Instr) : i.row ∈ opcodeRows := by
  cases i <;> simp [opcodeRows, Instr.row]

/-- Every row of the opcode map is some instruction's. -/
theorem exists_row_of_mem_opcodeRows : ∀ r ∈ opcodeRows, ∃ i : Instr, i.row = r := by
  simp [opcodeRows]

/-- Words that agree under mask FFFF are equal. -/
theorem eq_of_and_maskAll (h : w &&& 0xFFFF = v &&& 0xFFFF) : w = v := by
  rwa [show (0xFFFF : Word) = BitVec.allOnes 16 from rfl, BitVec.and_allOnes, BitVec.and_allOnes] at h

/-- Words that agree under mask F000 have the same operation. -/
theorem fieldOp_eq_of_and_maskOp (h : w &&& 0xF000 = v &&& 0xF000) : fieldOp w = fieldOp v := by
  simpa only [and_maskOp, fieldOp_formatNNN] using congrArg fieldOp h

/-- Words that agree under mask F00F have the same operation and the same `n`. -/
theorem fields_eq_of_and_maskOpN (h : w &&& 0xF00F = v &&& 0xF00F) : fieldOp w = fieldOp v ∧ fieldN w = fieldN v := by
  rw [and_maskOpN, and_maskOpN] at h
  exact ⟨by simpa using congrArg fieldOp h, by simpa using congrArg fieldN h⟩

/-- Words that agree under mask F0FF have the same operation and the same `nn`. -/
theorem fields_eq_of_and_maskOpNn (h : w &&& 0xF0FF = v &&& 0xF0FF) :
    fieldOp w = fieldOp v ∧ fieldNn w = fieldNn v := by
  rw [and_maskOpNn, and_maskOpNn] at h
  exact ⟨by simpa using congrArg fieldOp h, by simpa using congrArg fieldNn h⟩

/-- A word with the fixed bits of an instruction's row decodes within that row: the fields that `decodeWord` branches on
are those of the instruction's own word. -/
theorem decodeWord_of_selects (h : i.row.selects w = true) : (decodeWord w).map Instr.row = some i.row := by
  have hagree : w &&& i.row.mask = encode i &&& i.row.mask :=
    (of_decide_eq_true h).trans (of_decide_eq_true (selects_encode i)).symm
  cases i with
  | cls | ret => rw [eq_of_and_maskAll hagree, decodeWord_encode, Option.map_some]
  | jp | call | ldI | jpV0 | seImm | sneImm | ldImm | addImm | rnd | drw =>
    have hop := fieldOp_eq_of_and_maskOp hagree
    simp [decodeWord, hop, encode, Instr.row]
  | seReg | sneReg =>
    obtain ⟨hop, hn⟩ := fields_eq_of_and_maskOpN hagree
    simp [decodeWord, hop, hn, encode, Instr.row]
  | ldReg | orReg | andReg | xorReg | addReg | subReg | shr | subnReg | shl =>
    obtain ⟨hop, hn⟩ := fields_eq_of_and_maskOpN hagree
    simp [decodeWord, decodeAlu, hop, hn, encode, Instr.row]
  | skp | sknp =>
    obtain ⟨hop, hnn⟩ := fields_eq_of_and_maskOpNn hagree
    simp [decodeWord, decodeKeySkip, hop, hnn, encode, Instr.row]
  | ldVxDt | ldVxK | ldDtVx | ldStVx | addI | ldF | ldB | storeRegs | loadRegs =>
    obtain ⟨hop, hnn⟩ := fields_eq_of_and_maskOpNn hagree
    simp [decodeWord, decodeMisc, hop, hnn, encode, Instr.row]

end

/-- Settles O7: the word by its format, decoding by the fields of that format. -/
theorem encodingIsR71AndDecodesBack : Obligations.EncodingIsR71AndDecodesBack := fun i =>
  ⟨encode_eq_placeFields i, rfl, decodeWord_encode i, decode_encodeBytes i⟩

/-- Settles O8, along the operations that `decodeWord` branches on. -/
theorem decodedWordsAreTheirEncodings : Obligations.DecodedWordsAreTheirEncodings := fun _ _ => encode_of_decodeWord

/-- Settles O9: the row of what a word decodes to is the one row that selects the word. -/
theorem decodingFindsTheOneMatchingRow : Obligations.DecodingFindsTheOneMatchingRow := by
  refine ⟨fun w r r' hr hr' h h' => ?_, fun w i hi => ⟨row_mem_opcodeRows i, selects_of_decodeWord hi⟩,
    fun w => ⟨fun hnone r hr => ?_, fun hrows => ?_⟩⟩
  · obtain ⟨i, rfl⟩ := exists_row_of_mem_opcodeRows r hr
    obtain ⟨j, rfl⟩ := exists_row_of_mem_opcodeRows r' hr'
    exact Option.some.inj ((decodeWord_of_selects h).symm.trans (decodeWord_of_selects h'))
  · obtain ⟨i, rfl⟩ := exists_row_of_mem_opcodeRows r hr
    refine Bool.eq_false_iff.mpr fun h => ?_
    simpa [hnone] using decodeWord_of_selects h
  · refine Option.eq_none_iff_forall_not_mem.mpr fun i hi => ?_
    exact Bool.false_ne_true ((hrows _ (row_mem_opcodeRows i)).symm.trans (selects_of_decodeWord hi))

/-- Settles O10: each word that decodes is the encoding of an instruction; the near misses are computed. -/
theorem specExampleWordsDecode : Obligations.SpecExampleWordsDecode :=
  ⟨decodeWord_encode (.jp 0xABC), decodeWord_encode (.ldImm 0 0x69), decodeWord_encode (.addImm 1 0xC0),
    decodeWord_encode .ret, decodeWord_encode (.drw 0 1 2), decodeWord_encode (.shl 2 0),
    decodeWord_encode (.loadRegs 2), decodeWord_encode (.skp 7), rfl, rfl, rfl, rfl⟩

end Sys2Proof

/-! The tick: the host's part, fetch, and the step in each MODE (`40_cycle.md` R81 to R94). -/

namespace Sys2Proof

section

open Laws

/-- Every operand of every instruction fits its field (R61, R63): one lemma per constructor. -/
theorem Instr.wellFormed_eq_true (i : Instr) : i.wellFormed = true :=
  Instr.casesOn (motive := OperandsFit.Statement) i OperandsFit.cls OperandsFit.ret OperandsFit.jp OperandsFit.call
    OperandsFit.seImm OperandsFit.sneImm OperandsFit.seReg OperandsFit.ldImm OperandsFit.addImm OperandsFit.ldReg
    OperandsFit.orReg OperandsFit.andReg OperandsFit.xorReg OperandsFit.addReg OperandsFit.subReg OperandsFit.shr
    OperandsFit.subnReg OperandsFit.shl OperandsFit.sneReg OperandsFit.ldI OperandsFit.jpV0 OperandsFit.rnd
    OperandsFit.drw OperandsFit.skp OperandsFit.sknp OperandsFit.ldVxDt OperandsFit.ldVxK OperandsFit.ldDtVx
    OperandsFit.ldStVx OperandsFit.addI OperandsFit.ldF OperandsFit.ldB OperandsFit.storeRegs OperandsFit.loadRegs

end

/-- Two bytes that decode are the word of the instruction. -/
theorem decodeWord_of_decode {high low : Byte} {i : Instr} {rest rest' : List Byte}
    (h : decode (high :: low :: rest) = .ok (i, rest')) : decodeWord (wordOfBytes high low) = some i := by
  rw [decode_pair] at h
  cases hd : decodeWord (wordOfBytes high low) with
  | none => rw [hd] at h; cases h
  | some j => rw [hd] at h; cases h; rfl

end Sys2Proof

namespace Sys2Proof.Machine

/-! ## The end of a key wait (R88) -/

/-- A key is new when it is down and was up at the previous sample (R88). -/
theorem State.newKeys_getLsbD_eq_true {s : State} (k : Key) :
    s.newKeys.getLsbD k.val = true ↔ s.keys.getLsbD k.val = true ∧ s.kprev.getLsbD k.val = false := by
  rw [State.newKeys_getLsbD, Bool.and_eq_true, Bool.not_eq_true']

/-- The end of a key wait writes V[WX], MODE and PC (R88). -/
theorem State.changesOnly_leaveWait (s : State) (k : Key) :
    ChangesOnly [s.wx] [.mode] s ((s.leaveWait k).retire .advance) := by
  refine ⟨fun r hr => ?_, fun p hp => ?_, rfl, rfl, rfl, rfl, rfl⟩
  · rw [State.retire_reg, State.reg_leaveWait, if_neg (mt List.mem_singleton.mpr hr)]
  · cases p with
    | mode => exact absurd (List.mem_singleton.mpr rfl) hp
    | stack | keyWait => exact ⟨rfl, rfl⟩
    | mem => exact fun _ => rfl
    | fb => exact fun _ _ => rfl
    | i | dt | st | faultInfo => rfl

/-- V[WX] holds the key's number at the end of a key wait (R88). -/
theorem State.toNat_reg_wx_leaveWait (s : State) (k : Key) : ((s.leaveWait k).reg s.wx).toNat = k.val := by
  rw [State.reg_leaveWait, if_pos rfl, BitVec.toNat_ofNat]
  exact Nat.mod_eq_of_lt (by omega)

/-- Settles O18: the least key of the new keys ends the wait; with no new key it goes on. -/
theorem waitTickCompletesOnTheLeastNewKey : Obligations.WaitTickCompletesOnTheLeastNewKey := by
  intro s hm
  rw [State.tick_waitKey hm]
  obtain ⟨k, hk, ht⟩ | ⟨hnone, ht⟩ := s.waitTick_cases
  · obtain ⟨hdown, hup⟩ := (State.newKeys_getLsbD_eq_true k).mp (leastKey_down hk)
    refine ⟨fun _ => ⟨k, _, congrArg _ ht, hdown, hup, fun j hj hnew => ?_, s.toNat_reg_wx_leaveWait k, rfl, rfl, rfl,
      s.changesOnly_leaveWait k⟩, fun hall => ?_⟩
    · exact Bool.false_ne_true ((leastKey_least hk hj).symm.trans ((State.newKeys_getLsbD_eq_true j).mpr hnew))
    · exact absurd (hup.symm.trans (hall k hdown)) Bool.false_ne_true
  · have hall := State.leastKey_newKeys_none_iff.mp hnone
    exact ⟨fun ⟨k, hdown, hup⟩ => absurd (hup.symm.trans (hall k hdown)) Bool.false_ne_true, fun _ => congrArg _ ht⟩

/-! ## The tick in RUNNING, by what the fetch answers (R83 to R87) -/

section

variable {s : State} {w : Word} {i : Instr} {e : FaultInfo}

/-- A fetch that fails raises its error (R83, R188). -/
theorem State.tick_of_fetchWord_error (hm : s.mode = .running) (h : s.fetchWord = .error e) :
    s.tick = .next (s.raise e) := by
  rw [State.tick_running hm, State.runTick, h]

/-- A fetched word that decodes to nothing is skipped (R87). -/
theorem State.tick_of_decodeWord_none (hm : s.mode = .running) (h : s.fetchWord = .ok w) (hd : decodeWord w = none) :
    s.tick = .next (s.skipUnknown w) := by
  rw [State.tick_running hm, State.runTick, h]
  simp only [hd]

/-- A step runs the instruction that PC points at (R85). -/
theorem step_of_fetchedInstr (hm : s.mode = .running) (h : s.fetchedInstr = some i) : step s = exec i s.beginTick :=
  (State.tick_running (s := s.beginTick) hm).trans (State.runTick_of_fetchedInstr h)

end

/-- Settles O13: the word of the two bytes inside memory; beyond it the error of the first byte that is missing. -/
theorem fetchIsBigEndianAndRangeChecked : Obligations.FetchIsBigEndianAndRangeChecked := by
  refine fun s => ⟨fun hpc => ⟨_, State.fetchWord_ok (Nat.lt_succ_of_le (Nat.succ_le_succ hpc)), toNat_wordOfBytes ..⟩,
    fun hm hpc => ?_⟩
  by_cases hlast : s.pc.toNat = 0xFFF
  · rw [if_pos hlast]
    exact State.tick_of_fetchWord_error hm (State.fetchWord_second (congrArg Nat.succ hlast))
  · rw [if_neg hlast]
    exact State.tick_of_fetchWord_error hm (State.fetchWord_first (Nat.lt_of_le_of_ne hpc (Ne.symm hlast)))

/-! ## The host's part of a step (R81, R93) -/

/-- With nothing queued the next input is the free values of the next draw (R81). -/
theorem State.nextInput_nil {s : State} (h : s.inputs = []) :
    s.nextInput = ⟨Config.freeDecrements s.draws, Config.freeKeys s.draws, Config.freeRnd s.draws⟩ := by
  rw [State.nextInput, h]

theorem State.nextDraws_nil {s : State} (h : s.inputs = []) : s.nextDraws = s.draws + 1 := by
  rw [State.nextDraws, h]

/-- Settles O14: the timers by iterated decrements, the inputs by the two cases of the queue. -/
theorem beginTickLatchesInputsAndRunsTimersDown : Obligations.BeginTickLatchesInputsAndRunsTimersDown := by
  refine fun s => ⟨iterate_decrementTimer_toNat .., iterate_decrementTimer_toNat .., rfl, rfl,
    fun input rest h => ⟨State.nextInput_cons h, ?_, State.nextDraws_cons h⟩,
    fun h => ⟨State.nextInput_nil h, ?_, State.nextDraws_nil h⟩,
    rfl, rfl, rfl, fun _ => rfl, rfl, rfl, rfl, rfl, rfl, rfl, rfl, rfl, rfl⟩
  · rw [State.beginTick_inputs, h, List.tail_cons]
  · rw [State.beginTick_inputs, h, List.tail_nil]

/-! ## The step in RUNNING and in FAULT -/

/-- Settles O15: what the two bytes decode to is the fetched instruction, and the step runs that. -/
theorem stepRunsTheDecodedInstruction : Obligations.StepRunsTheDecodedInstruction := by
  intro s i rest hm hpc hdec
  have hfetch : s.fetchedInstr = some i := by
    rw [State.fetchedInstr, State.fetchWord_ok (Nat.lt_succ_of_le (Nat.succ_le_succ hpc))]
    exact decodeWord_of_decode hdec
  exact ⟨i.wellFormed_eq_true, step_of_fetchedInstr hm hfetch⟩

/-- Settles O16: the host's part of the step keeps MODE and the fetched word. -/
theorem unknownWordIsANoOpAdvance : Obligations.UnknownWordIsANoOpAdvance := fun s _ hm hfetch hdec =>
  State.tick_of_decodeWord_none (s := s.beginTick) hm hfetch hdec

/-- Settles O17, by the rule of a step in FAULT. -/
theorem faultTickRepeatsTheLatchedError : Obligations.FaultTickRepeatsTheLatchedError := fun _ _ => step_fault

/-- Settles O20: an instruction completes, or raises its error, which is a next state too. -/
theorem everyInstructionAnswersANextState : Obligations.EveryInstructionAnswersANextState := fun i s =>
  ⟨_, exec_eq i s⟩

/-- A jump to the address of PC changes the tick's result only (R94, R101). -/
theorem execJp_self {s : State} {nnn : Nnn} (hpc : s.pc = nnn.setWidth 16) :
    execJp nnn s = .next { s with result := some .ok } := by
  rw [execJp, ← hpc]
  rfl

/-- Settles O30: the step runs the jump, whose target is where PC stands. -/
theorem selfJumpIsAFixedPoint : Obligations.SelfJumpIsAFixedPoint := fun s _ hm hfetch hpc =>
  (step_of_fetchedInstr hm hfetch).trans (execJp_self (s := s.beginTick) hpc)

end Sys2Proof.Machine

/-!
What a completed instruction leaves as it was (R29), and the transfers of control (`41_control_transfer.md` R100 to
R103).
-/

namespace Sys2Proof.Machine

section

variable {s t u : State} {i : Instr} {p : Part} {regs : List Reg} {parts : List Part}

/-! ## Frames in a row -/

theorem Part.same_trans (hst : Part.same s t p) (htu : Part.same t u p) : Part.same s u p := by
  cases p with
  | stack | keyWait => exact ⟨htu.1.trans hst.1, htu.2.trans hst.2⟩
  | mem => exact fun a => (htu a).trans (hst a)
  | fb => exact fun px py => (htu px py).trans (hst px py)
  | i | dt | st | mode | faultInfo => exact htu.trans hst

theorem ChangesOnly.trans (hst : ChangesOnly regs parts s t) (htu : ChangesOnly regs parts t u) :
    ChangesOnly regs parts s u := by
  obtain ⟨hreg, hpart, hparams, hkeys, hrnd, hinputs, hdraws⟩ := hst
  obtain ⟨hreg', hpart', hparams', hkeys', hrnd', hinputs', hdraws'⟩ := htu
  exact ⟨fun r hr => (hreg' r hr).trans (hreg r hr), fun p hp => Part.same_trans (hpart p hp) (hpart' p hp),
    hparams'.trans hparams, hkeys'.trans hkeys, hrnd'.trans hrnd, hinputs'.trans hinputs, hdraws'.trans hdraws⟩

/-! ## The frame of a completed instruction (R13 to R23, R29) -/

/-- The pieces of state that an instruction may write when it raises no error. -/
def instrParts : Instr → List Part
  | .ret | .call _ => [.stack]
  | .ldI _ | .addI _ | .ldF _ | .loadRegs _ => [.i]
  | .storeRegs _ => [.i, .mem]
  | .ldB _ => [.mem]
  | .cls | .drw _ _ _ => [.fb]
  | .ldDtVx _ => [.dt]
  | .ldStVx _ => [.st]
  | .ldVxK _ => [.mode, .keyWait]
  | .jp _ | .seImm _ _ | .sneImm _ _ | .seReg _ _ | .ldImm _ _ | .addImm _ _ | .ldReg _ _ | .orReg _ _ | .andReg _ _
  | .xorReg _ _ | .addReg _ _ | .subReg _ _ | .shr _ _ | .subnReg _ _ | .shl _ _ | .sneReg _ _ | .jpV0 _ | .rnd _ _
  | .skp _ | .sknp _ | .ldVxDt _ => []

/-- The writers of each piece are the instructions that `instrParts` gives it to. -/
theorem Part.same_completed (hp : p ∉ instrParts i) : Part.same s (s.completed i) p := by
  cases p with
  | i =>
    by_contra h
    obtain ⟨_, rfl⟩ | ⟨_, rfl⟩ | ⟨_, rfl⟩ | ⟨_, ⟨_, rfl⟩ | ⟨_, rfl⟩⟩ := State.nextI_writer h <;> exact hp (.head _)
  | stack =>
    by_contra h
    obtain rfl | ⟨_, rfl⟩ := State.nextStack_writer (not_and_or.mp h) <;> exact hp (.head _)
  | dt =>
    by_contra h
    obtain ⟨_, rfl⟩ := State.nextDt_writer h
    exact hp (.head _)
  | st =>
    by_contra h
    obtain ⟨_, rfl⟩ := State.nextSt_writer h
    exact hp (.head _)
  | mem =>
    have hmem : s.nextMem i = s.mem := by
      by_contra h
      obtain ⟨_, rfl⟩ | ⟨_, rfl⟩ := State.nextMem_writer h
      · exact hp (.head _)
      · exact hp (.tail _ (.head _))
    exact fun a => congrArg (Memory.read · a) hmem
  | fb =>
    have hfb : s.nextFb i = s.fb := by
      by_contra h
      obtain rfl | ⟨_, _, _, rfl⟩ := State.nextFb_writer h <;> exact hp (.head _)
    exact fun px py => congrArg (FrameBuffer.fbRead · px py) hfb
  | mode =>
    refine (s.completed_mode i).resolve_right fun ⟨_, _, hi⟩ => ?_
    subst hi
    exact hp (.head _)
  | keyWait =>
    by_contra h
    obtain ⟨_, rfl⟩ := State.waitEntered_writer (not_and_or.mp h)
    exact hp (.tail _ (.head _))
  | faultInfo => rfl

/-- A completed instruction writes the registers of its write ports and its pieces of state, and nothing else. -/
theorem State.changesOnly_completed (s : State) (i : Instr) :
    ChangesOnly (instrWrites i) (instrParts i) s (s.completed i) :=
  ⟨fun r hr => State.reg_writeAll_of_notMem (by rwa [State.map_fst_regWrites]), fun _ => Part.same_completed,
    rfl, rfl, rfl, rfl, rfl⟩

end

/-! ## The jumps (R101, R103) -/

/-- Settles O32: the target is the operand, zero-extended. -/
theorem jumpSetsPcExactly : Obligations.JumpSetsPcExactly := fun nnn s =>
  ⟨rfl, _, exec_of_errorOf_none rfl, BitVec.toNat_setWidth_of_le (by decide), rfl, s.changesOnly_completed (.jp nnn)⟩

/-- An address and a byte add up within a word (R103). -/
theorem toNat_indexedTarget (nnn : Nnn) (b : Byte) :
    (nnn.setWidth 16 + b.setWidth 16 : Word).toNat = nnn.toNat + b.toNat := by
  rw [BitVec.toNat_add, BitVec.toNat_setWidth_of_le (by decide), BitVec.toNat_setWidth_of_le (by decide)]
  omega

/-- Settles O33: the sum in PC does not wrap around. -/
theorem indexedJumpAddsV0Unreduced : Obligations.IndexedJumpAddsV0Unreduced := fun nnn s =>
  ⟨_, exec_of_errorOf_none rfl, toNat_indexedTarget .., rfl, s.changesOnly_completed (.jpV0 nnn)⟩

/-! ## Call and return (R100, R102) -/

/-- Settles O31: RET completes when the stack holds an entry, and raises its error when it holds none. -/
theorem retPopsIntoPc : Obligations.RetPopsIntoPc :=
  ⟨rfl, fun s => ⟨fun h => ⟨_, exec_of_errorOf_none (if_neg h), rfl, rfl, rfl, rfl, s.changesOnly_completed .ret⟩,
    fun h => exec_of_errorOf_some (if_pos h)⟩⟩

section

variable {s : State} (nnn : Nnn)

/-- CALL with room on the stack raises SP by one (R102). -/
theorem State.nextSp_call (h : s.sp.val < 16) : (s.nextSp (.call nnn)).val = s.sp.val + 1 := by
  rw [State.nextSp, dif_pos h]

/-- CALL with room on the stack stores the address after it at SP (R102). -/
theorem State.nextStk_call (h : s.sp.val < 16) : s.nextStk (.call nnn) = s.stk.set s.sp.val (s.pc + 2) := by
  rw [State.nextStk, dif_pos h]

/-- The entry that CALL pushes (R102). -/
theorem State.completed_call_stk_sp (h : s.sp.val < 16) : (s.completed (.call nnn)).stk[s.sp.val] = s.pc + 2 := by
  simp only [State.completed, State.nextStk_call nnn h, Vector.getElem_set_self]

/-- CALL leaves the entries other than the pushed one (R102). -/
theorem State.completed_call_stk_of_ne (h : s.sp.val < 16) {j : Fin 16} (hj : j.val ≠ s.sp.val) :
    (s.completed (.call nnn)).stk[j] = s.stk[j] := by
  simp only [State.completed, State.nextStk_call nnn h, Fin.getElem_fin]
  exact Vector.getElem_set_ne _ _ hj.symm

end

/-- Settles O34: CALL completes when the stack has room, and raises its error when it is full. -/
theorem callPushesTheReturnAddress : Obligations.CallPushesTheReturnAddress := by
  refine fun nnn s => ⟨rfl, fun h => ?_, fun h => exec_of_errorOf_some (if_pos h)⟩
  have hroom : s.sp.val < 16 := by omega
  exact ⟨_, exec_of_errorOf_none (if_neg h), BitVec.toNat_setWidth_of_le (by decide), State.nextSp_call nnn hroom,
    State.completed_call_stk_sp nnn hroom, fun _ => State.completed_call_stk_of_ne nnn hroom, rfl,
    s.changesOnly_completed (.call nnn)⟩

/-- Settles O35: after the call the newest entry is the pushed one, which the return pops. -/
theorem callThenRetComesBack : Obligations.CallThenRetComesBack := by
  intro nnn s h
  obtain ⟨-, hcall, -⟩ := callPushesTheReturnAddress nnn s
  obtain ⟨t, hexec, -, htsp, hpushed, hothers, -, hframe⟩ := hcall h
  have hnewest : t.sp.val - 1 = s.sp.val := by omega
  obtain ⟨-, hrets⟩ := retPopsIntoPc
  obtain ⟨hret, -⟩ := hrets t
  obtain ⟨u, hexec', hupc, husp, hustk, -, hframe'⟩ := hret (by omega)
  refine ⟨t, u, hexec, hexec', ?_, Fin.ext (husp.trans hnewest), fun j hj => ?_, hframe.trans hframe'⟩
  · simpa only [hupc, hnewest] using hpushed
  · rw [hustk]
    exact hothers j (Nat.ne_of_lt hj)

end Sys2Proof.Machine

/-! The register skips (`42_skips.md` R110 to R114). -/

namespace Sys2Proof

/-- Format XYF with the fixed low nibble 0 places nothing below `y` (R65). -/
theorem formatXYN_zero (op : Nibble) (x y : Reg) :
    formatXYN op x y 0 = op.setWidth 16 <<< 12 ||| (nibbleOf x).setWidth 16 <<< 8 ||| (nibbleOf y).setWidth 16 <<< 4 :=
  BitVec.or_zero

end Sys2Proof

namespace Sys2Proof.Machine

section

variable {s : State} {i : Instr} {c : Prop} [Decidable c]

/-! ## The PC rule of all skips (R114) -/

theorem newPc_skipIf (pc : Word) : (skipIf c).newPc pc = if c then pc + 4 else pc + 2 := by
  by_cases h : c <;> simp [skipIf, h, PcAction.newPc]

theorem tickResult_skipIf (b : Bool) : (skipIf b).tickResult = .ok := by
  cases b <;> rfl

/-- An instruction that raises no error, writes nothing and skips when `c` holds moves PC by 4 or 2 only (R114). -/
theorem exec_of_pcAction_eq_skipIf (he : s.errorOf i = none) (hact : s.pcAction i = skipIf c)
    (hwrites : instrWrites i = []) (hparts : instrParts i = []) :
    ∃ t, exec i s = .next t ∧ t.pc = (if c then s.pc + 4 else s.pc + 2) ∧ t.result = some .ok ∧
      ChangesOnly [] [] s t := by
  refine ⟨s.completed i, exec_of_errorOf_none he, ?_, ?_, ?_⟩
  · rw [State.completed, hact, newPc_skipIf]
  · rw [State.completed, hact, tickResult_skipIf]
  · simpa only [hwrites, hparts] using s.changesOnly_completed i

/-- The same for an instruction that skips when `c` does not hold. -/
theorem exec_of_pcAction_eq_skipIf_not (he : s.errorOf i = none) (hact : s.pcAction i = skipIf (¬c))
    (hwrites : instrWrites i = []) (hparts : instrParts i = []) :
    ∃ t, exec i s = .next t ∧ t.pc = (if c then s.pc + 2 else s.pc + 4) ∧ t.result = some .ok ∧
      ChangesOnly [] [] s t := by
  simpa only [ite_not] using exec_of_pcAction_eq_skipIf he hact hwrites hparts

end

/-- Settles O36: each skip follows the PC rule, SE on its comparison and SNE on the negated one. -/
theorem registerSkipsAdvanceByFourOrTwo : Obligations.RegisterSkipsAdvanceByFourOrTwo := fun x y _ _ =>
  ⟨rfl, rfl, formatXYN_zero 0x5 x y, formatXYN_zero 0x9 x y,
    exec_of_pcAction_eq_skipIf rfl rfl rfl rfl, exec_of_pcAction_eq_skipIf_not rfl rfl rfl rfl,
    exec_of_pcAction_eq_skipIf rfl rfl rfl rfl, exec_of_pcAction_eq_skipIf_not rfl rfl rfl rfl⟩

end Sys2Proof.Machine

/-! The register and index loads (`43_register_loads.md` R120 to R124). -/

namespace Sys2Proof.Machine

/-- A register that an instruction writes once holds the value of that write. -/
theorem State.completed_reg_of_regWrites {s : State} {i : Instr} {x : Reg} {b : Byte} (h : s.regWrites i = [(x, b)]) :
    (s.completed i).reg x = b := by
  rw [State.completed_reg, h, State.writeAll_cons, State.writeAll_nil, State.reg_writeReg_same]

/-- Settles O37: the one register write is the byte, or the sum in 8 bits. -/
theorem immediateLoadAndAdd : Obligations.ImmediateLoadAndAdd := by
  refine fun x nn s => ⟨rfl, rfl, ⟨_, exec_of_errorOf_none rfl, State.completed_reg_of_regWrites rfl, rfl, rfl,
    s.changesOnly_completed (.ldImm x nn)⟩, ⟨_, exec_of_errorOf_none rfl, ?_, rfl, rfl,
    s.changesOnly_completed (.addImm x nn)⟩⟩
  rw [State.completed_reg_of_regWrites rfl]
  exact BitVec.toNat_add (s.reg x) nn

/-- Settles O38: I is the operand, zero-extended. -/
theorem indexLoadZeroExtends : Obligations.IndexLoadZeroExtends := fun nnn s =>
  ⟨rfl, _, exec_of_errorOf_none rfl, BitVec.toNat_setWidth_of_le (by decide), rfl, rfl,
    s.changesOnly_completed (.ldI nnn)⟩

/-- A byte added to a word, modulo 2^16 (R123). -/
theorem toNat_add_setWidth_byte (a : Word) (b : Byte) :
    (a + b.setWidth 16).toNat = (a.toNat + b.toNat) % 2 ^ 16 := by
  rw [BitVec.toNat_add, BitVec.toNat_setWidth_of_le (by decide)]

/-- Settles O39: I is the sum in 16 bits, and no register is written. -/
theorem indexAddWrapsAtSixteenBits : Obligations.IndexAddWrapsAtSixteenBits := fun x s =>
  ⟨_, exec_of_errorOf_none rfl, toNat_add_setWidth_byte s.i (s.reg x), rfl, rfl, s.changesOnly_completed (.addI x)⟩

/-- No bit of a masked byte lies outside the mask (R124). -/
theorem and_mask_and_not_mask (b mask : Byte) : b &&& mask &&& ~~~mask = 0 := by
  rw [BitVec.and_assoc, BitVec.and_not_self]
  exact BitVec.and_zero

/-- Settles O40: the one register write is the tick's random byte, masked. -/
theorem randomLoadIsMasked : Obligations.RandomLoadIsMasked := by
  intro x nn s
  have hreg : (s.completed (.rnd x nn)).reg x = s.rnd &&& nn := State.completed_reg_of_regWrites rfl
  refine ⟨_, exec_of_errorOf_none rfl, hreg, ?_, rfl, rfl, s.changesOnly_completed (.rnd x nn)⟩
  rw [hreg, and_mask_and_not_mask]

end Sys2Proof.Machine

/-! The arithmetic and logic group (`44_alu.md` R130 to R140). -/

namespace Sys2Proof

/-- The fixed low nibble of format XYF is disjoint from the operands' fields, so it may be read as part of the fixed
bits (R65). -/
theorem formatXYN_fixed_first (op n : Nibble) (x y : Reg) :
    formatXYN op x y n = op.setWidth 16 <<< 12 ||| n.setWidth 16 ||| (nibbleOf x).setWidth 16 <<< 8 |||
      (nibbleOf y).setWidth 16 <<< 4 := by
  rw [formatXYN, word_or_right_comm _ _ (n.setWidth 16), word_or_right_comm _ _ (n.setWidth 16)]

end Sys2Proof

namespace Sys2Proof.Machine

/-! ## Result before flag (R130) -/

section

variable {s : State} {i : Instr} {x : Reg} {result flag : Byte}

/-- The flag is written last, so VF holds it whatever the destination is (R130). -/
theorem State.completed_vf_of_result_then_flag (h : s.regWrites i = [(x, result), (Reg.vf, flag)]) :
    (s.completed i).reg Reg.vf = flag := by
  rw [State.completed_reg, h, State.writeAll_cons, State.writeAll_cons, State.writeAll_nil, State.reg_writeReg_same]

/-- A destination other than VF keeps the result (R130). -/
theorem State.completed_reg_of_result_then_flag (h : s.regWrites i = [(x, result), (Reg.vf, flag)])
    (hx : x ≠ Reg.vf) : (s.completed i).reg x = result := by
  rw [State.completed_reg, h, State.writeAll_cons, State.writeAll_cons, State.writeAll_nil,
    State.reg_writeReg_ne _ _ hx, State.reg_writeReg_same]

end

/-! ## Results and flags as integers (R135 to R140) -/

/-- The carry as VF holds it (R135). -/
theorem toNat_flagByte_carryOut (a b : Byte) :
    (flagByte (carryOut a b)).toNat = if 255 < a.toNat + b.toNat then 1 else 0 := by
  simp only [flagByte_toNat, carryOut, decide_eq_true_eq]

/-- "No borrow" as VF holds it (R136, R138). -/
theorem toNat_flagByte_noBorrow (a b : Byte) :
    (flagByte (noBorrow a b)).toNat = if b.toNat ≤ a.toNat then 1 else 0 := by
  simp only [flagByte_toNat, noBorrow, decide_eq_true_eq]

/-- Bit 0 of the operand as VF holds it (R137). -/
theorem toNat_flagByte_shiftedOutRight (b : Byte) : (flagByte (shiftedOutRight b)).toNat = b.toNat % 2 := by
  rw [flagByte_toNat, shiftedOutRight, BitVec.getLsbD, Nat.testBit_zero]
  obtain h | h := Nat.mod_two_eq_zero_or_one b.toNat <;> simp [h]

/-- Bit 7 of the operand as VF holds it (R139). -/
theorem toNat_flagByte_shiftedOutLeft (b : Byte) : (flagByte (shiftedOutLeft b)).toNat = b.toNat / 128 := by
  have hmsb : shiftedOutLeft b = decide (128 ≤ b.toNat) := BitVec.msb_eq_decide b
  have hlt := b.isLt
  rw [flagByte_toNat, hmsb]
  simp only [decide_eq_true_eq]
  split <;> omega

/-- A difference of bytes is the integers' difference modulo 256 (R136, R138). -/
theorem toNat_sub_byte (a b : Byte) : ((a - b).toNat : Int) = (a.toNat - b.toNat : Int) % 256 := by
  have hlt := b.isLt
  rw [BitVec.toNat_sub]
  omega

/-- A shift left by one doubles, modulo 256 (R139). -/
theorem toNat_shiftLeft_one (b : Byte) : (b <<< 1).toNat = b.toNat * 2 % 256 := by
  rw [BitVec.toNat_shiftLeft, Nat.shiftLeft_eq]

/-- The operand of a shift, by SHIFT_SOURCE (R137, R139). -/
theorem State.shiftOperand_eq (s : State) (x y : Reg) :
    s.shiftOperand x y = if s.params.shiftSource = .vy then s.reg y else s.reg x := by
  cases h : s.params.shiftSource <;> simp [State.shiftOperand, h]

/-! ## The instructions -/

/-- Settles O41: one register write, of the moved byte or of the bitwise operation. -/
theorem moveAndLogicLeaveVfAlone : Obligations.MoveAndLogicLeaveVfAlone := by
  refine fun x y s => ⟨formatXYN_zero 0x8 x y, formatXYN_fixed_first 0x8 0x1 x y, formatXYN_fixed_first 0x8 0x2 x y,
    formatXYN_fixed_first 0x8 0x3 x y,
    ⟨_, exec_of_errorOf_none rfl, State.completed_reg_of_regWrites rfl, rfl, rfl, s.changesOnly_completed (.ldReg x y)⟩,
    ⟨_, exec_of_errorOf_none rfl, fun b => ?_, rfl, rfl, s.changesOnly_completed (.orReg x y)⟩,
    ⟨_, exec_of_errorOf_none rfl, fun b => ?_, rfl, rfl, s.changesOnly_completed (.andReg x y)⟩,
    ⟨_, exec_of_errorOf_none rfl, fun b => ?_, rfl, rfl, s.changesOnly_completed (.xorReg x y)⟩⟩
  · rw [State.completed_reg_of_regWrites rfl, BitVec.getLsbD_or]
  · rw [State.completed_reg_of_regWrites rfl, BitVec.getLsbD_and]
  · rw [State.completed_reg_of_regWrites rfl, BitVec.getLsbD_xor]

/-- Settles O42: the sum in 8 bits, then the carry of the operands as they were. -/
theorem addWritesSumThenCarry : Obligations.AddWritesSumThenCarry := by
  refine fun x y s => ⟨_, exec_of_errorOf_none rfl, fun hx => ?_, ?_, rfl, rfl, s.changesOnly_completed (.addReg x y)⟩
  · rw [State.completed_reg_of_result_then_flag rfl hx]
    exact BitVec.toNat_add (s.reg x) (s.reg y)
  · rw [State.completed_vf_of_result_then_flag rfl, toNat_flagByte_carryOut]

/-- Settles O43: the difference in 8 bits, then "no borrow"; SUBN is SUB with the operands exchanged. -/
theorem subtractionsWriteDifferenceThenNoBorrow : Obligations.SubtractionsWriteDifferenceThenNoBorrow := by
  refine fun x y s => ⟨
    ⟨_, exec_of_errorOf_none rfl, fun hx => ?_, ?_, rfl, rfl, s.changesOnly_completed (.subReg x y)⟩,
    ⟨_, exec_of_errorOf_none rfl, fun hx => ?_, ?_, rfl, rfl, s.changesOnly_completed (.subnReg x y)⟩⟩
  · rw [State.completed_reg_of_result_then_flag rfl hx, toNat_sub_byte]
  · rw [State.completed_vf_of_result_then_flag rfl, toNat_flagByte_noBorrow]
  · rw [State.completed_reg_of_result_then_flag rfl hx, toNat_sub_byte]
  · rw [State.completed_vf_of_result_then_flag rfl, toNat_flagByte_noBorrow]

/-- Settles O44: the shifted operand, then the bit that the shift moves out. -/
theorem shiftsWriteResultThenEvictedBit : Obligations.ShiftsWriteResultThenEvictedBit := by
  intro x y s operand hoperand
  obtain rfl : operand = s.shiftOperand x y := hoperand.trans (s.shiftOperand_eq x y).symm
  refine ⟨⟨_, exec_of_errorOf_none rfl, fun hx => ?_, ?_, rfl, rfl, s.changesOnly_completed (.shr x y)⟩,
    ⟨_, exec_of_errorOf_none rfl, fun hx => ?_, ?_, rfl, rfl, s.changesOnly_completed (.shl x y)⟩⟩
  · rw [State.completed_reg_of_result_then_flag rfl hx, BitVec.toNat_ushiftRight, Nat.shiftRight_one]
  · rw [State.completed_vf_of_result_then_flag rfl, toNat_flagByte_shiftedOutRight]
  · rw [State.completed_reg_of_result_then_flag rfl hx, toNat_shiftLeft_one]
  · rw [State.completed_vf_of_result_then_flag rfl, toNat_flagByte_shiftedOutLeft]

end Sys2Proof.Machine

/-! The display group (`45_display.md` R150 to R156), and what the host sees of it (`40_cycle.md` R92). -/

namespace Sys2Proof.Machine

/-! ## The snapshot (R151) -/

theorem State.length_snapshot (s : State) : s.snapshot.length = 2048 := by
  rw [State.snapshot, List.length_map, List.length_range]

theorem State.getElem?_snapshot (s : State) {j : Nat} (hj : j < 2048) : s.snapshot[j]? = some (s.fb.pixel j) := by
  rw [State.snapshot, List.getElem?_map, List.getElem?_range hj, Option.map_some]

/-- Settles O6: the snapshot's entry of a row-major index is the pixel of its column and row. -/
theorem snapshotIsRowMajorAndObserveIsTheTimersAndMode :
    Obligations.SnapshotIsRowMajorAndObserveIsTheTimersAndMode := by
  refine fun s => ⟨s.length_snapshot, fun px py hx hy => ?_, rfl, rfl, rfl, fun hm => if_pos hm,
    fun hm => if_neg hm⟩
  rw [s.getElem?_snapshot (by omega), FrameBuffer.pixel_rowMajor _ hx]

/-! ## Clearing (R152) -/

/-- Settles O45: CLS writes the clear frame buffer and no register. -/
theorem clearDarkensEveryPixel : Obligations.ClearDarkensEveryPixel :=
  ⟨rfl, fun s => ⟨_, exec_of_errorOf_none rfl, FrameBuffer.fbRead_clear, rfl, rfl, s.changesOnly_completed .cls⟩⟩

/-! ## The pixels that a sprite covers (R153 to R156) -/

section

variable {s : State} {v : Vector Byte 16} {x y : Reg} {n : RowCount} {px py : Nat}

/-- The pixels that a sprite covers are those that the sequencer addresses, reduced. -/
theorem State.spriteCovers_iff :
    s.spriteCovers x y n px py ↔ (px, py) ∈ (s.spriteOf x y n).map reducePixel := by
  simp only [State.spriteOf, List.mem_map, mem_spritePixels, State.length_spriteRows, State.getElem_spriteRows]
  constructor
  · rintro ⟨r, c, hr, hc, hbit, rfl, rfl⟩
    exact ⟨_, ⟨r, hr, c, hc, hbit, rfl⟩, rfl⟩
  · rintro ⟨_, ⟨r, hr, c, hc, hbit, rfl⟩, hp⟩
    obtain ⟨rfl, rfl⟩ := Prod.mk.inj hp
    exact ⟨r, c, hr, hc, hbit, rfl, rfl⟩

/-- A covered pixel is one of the display, so reduction leaves it as it is (R156). -/
theorem State.spriteCovers_mod (h : s.spriteCovers x y n px py) : s.spriteCovers x y n (px % 64) (py % 32) := by
  obtain ⟨r, c, hr, hc, hbit, rfl, rfl⟩ := h
  exact ⟨r, c, hr, hc, hbit, Nat.mod_mod _ _, Nat.mod_mod _ _⟩

/-- A draw changes nothing that places its sprite but VF, so the sprite covers the same pixels again once V[x] and V[y]
are as they were. -/
theorem State.spriteCovers_redraw (h : s.AgreesOnReads v (.drw x y n)) :
    ((s.completed (.drw x y n)).withRegs v).spriteCovers x y n px py ↔ s.spriteCovers x y n px py := by
  have hsprite : ((s.completed (.drw x y n)).withRegs v).spriteOf x y n = s.spriteOf x y n :=
    State.spriteOf_withRegs h
  rw [State.spriteCovers_iff, State.spriteCovers_iff, hsprite]

/-! ## The frame buffer and VF after a draw (R153 to R155) -/

theorem State.nodup_spriteOf : ((s.spriteOf x y n).map reducePixel).Nodup :=
  nodup_spritePixels (by rw [State.length_spriteRows]; omega)

/-- A pixel after a draw: toggled when the sprite covers it. -/
theorem State.fbRead_completed_drw [Decidable (s.spriteCovers x y n (px % 64) (py % 32))] :
    (s.completed (.drw x y n)).fb.fbRead px py =
      (s.fb.fbRead px py ^^ decide (s.spriteCovers x y n (px % 64) (py % 32))) := by
  obtain ⟨hfb, -⟩ := drawPixels_spec s.fb (s.spriteOf x y n) State.nodup_spriteOf
  exact (hfb px py).trans (by simp only [State.spriteCovers_iff])

theorem State.fbRead_completed_drw_of_covers (h : s.spriteCovers x y n px py) :
    (s.completed (.drw x y n)).fb.fbRead px py = !s.fb.fbRead px py := by
  classical rw [State.fbRead_completed_drw, decide_eq_true (State.spriteCovers_mod h), Bool.xor_true]

theorem State.fbRead_completed_drw_of_not_covers (h : ¬s.spriteCovers x y n (px % 64) (py % 32)) :
    (s.completed (.drw x y n)).fb.fbRead px py = s.fb.fbRead px py := by
  classical rw [State.fbRead_completed_drw, decide_eq_false h, Bool.xor_false]

theorem flagByte_eq_one_iff {b : Bool} : flagByte b = 0x01 ↔ b = true := by cases b <;> decide

theorem flagByte_eq_one_or_zero (b : Bool) : flagByte b = 0x01 ∨ flagByte b = 0x00 := by cases b <;> decide

/-- VF after a draw is a flag. -/
theorem State.vf_completed_drw_eq_one_or_zero :
    (s.completed (.drw x y n)).reg Reg.vf = 0x01 ∨ (s.completed (.drw x y n)).reg Reg.vf = 0x00 := by
  rw [State.completed_reg_of_regWrites rfl]
  exact flagByte_eq_one_or_zero _

/-- VF after a draw says whether a covered pixel was lit. -/
theorem State.vf_completed_drw_eq_one_iff :
    (s.completed (.drw x y n)).reg Reg.vf = 0x01 ↔
      ∃ px py, s.spriteCovers x y n px py ∧ s.fb.fbRead px py = true := by
  obtain ⟨-, hflag⟩ := drawPixels_spec s.fb (s.spriteOf x y n) State.nodup_spriteOf
  rw [State.completed_reg_of_regWrites rfl, flagByte_eq_one_iff, hflag, List.any_eq_true]
  simp only [State.spriteCovers_iff, List.mem_map]
  constructor
  · rintro ⟨p, hp, hlit⟩
    exact ⟨_, _, ⟨p, hp, rfl⟩, by rwa [FrameBuffer.fbRead_mod]⟩
  · rintro ⟨_, _, ⟨p, hp, hred⟩, hlit⟩
    obtain ⟨rfl, rfl⟩ := Prod.mk.inj hred
    exact ⟨p, hp, by rwa [FrameBuffer.fbRead_mod] at hlit⟩

/-- A draw whose sprite is empty or in memory raises no error (R154). -/
theorem State.errorOf_drw_none (h : n.val = 0 ∨ s.i.toNat + n.val - 1 ≤ 0xFFF) : s.errorOf (.drw x y n) = none :=
  if_neg (by omega)

/-! ## Drawing twice (R153, C9) -/

/-- Frame buffers with the same pixels are equal (R19). -/
theorem FrameBuffer.ext_fbRead {fb fb' : FrameBuffer} (h : ∀ px py, fb.fbRead px py = fb'.fbRead px py) : fb = fb' := by
  refine Vector.ext fun py hy => BitVec.eq_of_getLsbD_eq fun px hx => ?_
  simpa only [FrameBuffer.fbRead, Nat.mod_eq_of_lt hx, Nat.mod_eq_of_lt hy] using h px py

/-- The second draw toggles every covered pixel back. -/
theorem State.fb_redraw (h : s.AgreesOnReads v (.drw x y n)) :
    (((s.completed (.drw x y n)).withRegs v).completed (.drw x y n)).fb = s.fb := by
  classical
  have hfirst : ((s.completed (.drw x y n)).withRegs v).fb = (s.completed (.drw x y n)).fb := rfl
  refine FrameBuffer.ext_fbRead fun px py => ?_
  rw [State.fbRead_completed_drw, hfirst, State.fbRead_completed_drw,
    decide_eq_decide.mpr (State.spriteCovers_redraw h), Bool.xor_assoc, Bool.xor_self, Bool.xor_false]

/-- The pixels that are lit at the second draw and covered are those that the first draw lit. -/
theorem State.vf_redraw_eq_one_iff (h : s.AgreesOnReads v (.drw x y n)) :
    (((s.completed (.drw x y n)).withRegs v).completed (.drw x y n)).reg Reg.vf = 0x01 ↔
      ∃ px py, s.fb.fbRead px py = false ∧ (s.completed (.drw x y n)).fb.fbRead px py = true := by
  rw [State.vf_completed_drw_eq_one_iff]
  constructor
  · rintro ⟨px, py, hcovers, hlit⟩
    have htoggled := State.fbRead_completed_drw_of_covers ((State.spriteCovers_redraw h).mp hcovers)
    exact ⟨px, py, (Bool.not_eq_true' _).mp (htoggled.symm.trans hlit), hlit⟩
  · rintro ⟨px, py, hdark, hlit⟩
    refine ⟨px % 64, py % 32, (State.spriteCovers_redraw h).mpr ?_, (FrameBuffer.fbRead_mod _ px py).trans hlit⟩
    by_contra hnot
    rw [State.fbRead_completed_drw_of_not_covers hnot, hdark] at hlit
    cases hlit

/-- The registers that place the sprite hold what they did, when they are put back, or when neither is the one that the
draw writes (R29). -/
theorem State.agreesOnReads_redraw
    (h : v = s.v ∨ (v = (s.completed (.drw x y n)).v ∧ x ≠ Reg.vf ∧ y ≠ Reg.vf)) :
    s.AgreesOnReads v (.drw x y n) := by
  intro r hr
  obtain rfl | ⟨rfl, hx, hy⟩ := h
  · rfl
  · obtain ⟨hreg, -⟩ := s.changesOnly_completed (.drw x y n)
    refine hreg r fun hvf => ?_
    obtain rfl := List.mem_singleton.mp hvf
    obtain h | h : Reg.vf = x ∨ Reg.vf = y := by simpa [instrReads] using hr
    · exact hx h.symm
    · exact hy h.symm

end

/-- Settles O46: the draw completes when the sprite is in memory, and else raises its access error. -/
theorem drawTogglesTheSpritesPixels : Obligations.DrawTogglesTheSpritesPixels := by
  refine fun x y n s => ⟨fun h => ⟨_, exec_of_errorOf_none (State.errorOf_drw_none h),
    fun px py hx hy => ⟨State.fbRead_completed_drw_of_covers, fun hnot => ?_⟩,
    State.vf_completed_drw_eq_one_iff.mpr,
    fun hnone => State.vf_completed_drw_eq_one_or_zero.resolve_left (mt State.vf_completed_drw_eq_one_iff.mp hnone),
    rfl, rfl, s.changesOnly_completed (.drw x y n)⟩, fun hn hrange => exec_of_errorOf_some (if_pos ⟨hn, hrange⟩)⟩
  exact State.fbRead_completed_drw_of_not_covers (by rwa [Nat.mod_eq_of_lt hx, Nat.mod_eq_of_lt hy])

/-- Settles O47: the second draw covers the same pixels, so it toggles each back, and it meets a lit pixel exactly where
the first draw met a dark one. -/
theorem drawingTwiceRestoresTheDisplay : Obligations.DrawingTwiceRestoresTheDisplay := by
  refine fun x y n s h => ⟨_, exec_of_errorOf_none (State.errorOf_drw_none h), fun v hv => ?_⟩
  have hagree := State.agreesOnReads_redraw hv
  exact ⟨_, exec_of_errorOf_none (State.errorOf_drw_none h), State.fb_redraw hagree, State.vf_redraw_eq_one_iff hagree,
    State.vf_completed_drw_eq_one_or_zero⟩

end Sys2Proof.Machine

/-! The key and timer group (`46_keys_timers.md` R160 to R167), with the later ticks of FX0A (`40_cycle.md` R88). -/

namespace Sys2Proof.Machine

/-! ## The key wait from its first tick on (R163, R88) -/

section

variable {s t u : State} {x : Reg} {k : Key} {p : Part} {regs regs' : List Reg} {parts parts' : List Part}
  {input : TickInput} {rest : List TickInput}

/-- A frame that names more registers and pieces allows more. -/
theorem ChangesOnly.mono (h : ChangesOnly regs parts s t) (hregs : regs ⊆ regs') (hparts : parts ⊆ parts') :
    ChangesOnly regs' parts' s t := by
  obtain ⟨hreg, hpart, hrest⟩ := h
  exact ⟨fun r hr => hreg r (mt (hregs ·) hr), fun p hp => hpart p (mt (hparts ·) hp), hrest⟩

/-- The first tick of FX0A writes the latches of the wait and MODE (R163). -/
theorem State.changesOnly_completed_ldVxK (s : State) (x : Reg) :
    ChangesOnly [] [.keyWait, .mode] s (s.completed (.ldVxK x)) :=
  ChangesOnly.mono (parts := [.mode, .keyWait]) (s.changesOnly_completed (.ldVxK x)) (List.Subset.refl _) (by decide)

/-- The host's part of a step writes only the timers among the pieces of the block's state (R81, R93). -/
theorem Part.same_beginTick (hp : p ∉ [Part.dt, Part.st]) : Part.same s s.beginTick p := by
  cases p with
  | dt => exact absurd (.head _) hp
  | st => exact absurd (.tail _ (.head _)) hp
  | stack | keyWait => exact ⟨rfl, rfl⟩
  | mem => exact fun _ => rfl
  | fb => exact fun _ _ => rfl
  | i | mode | faultInfo => rfl

/-- A sample that ends no wait writes only the latches of the wait (R88). -/
theorem Part.same_keepWaiting (hp : p ∉ [Part.keyWait]) : Part.same s s.keepWaiting p := by
  cases p with
  | keyWait => exact absurd (.head _) hp
  | stack => exact ⟨rfl, rfl⟩
  | mem => exact fun _ => rfl
  | fb => exact fun _ _ => rfl
  | i | dt | st | mode | faultInfo => rfl

/-- The pieces of state that a key wait may write, from its first tick to its last (R88, R163, R192). -/
def keyWaitParts : List Part := [.dt, .st, .mode, .keyWait]

/-- `u` waits for the key of an FX0A that was executed in `s`: PC is held and nothing but `keyWaitParts` has changed. -/
structure State.KeyWaitFrom (s : State) (x : Reg) (u : State) : Prop where
  mode : u.mode = .waitKey
  wx : u.wx = x
  pc : u.pc = s.pc
  result : u.result = some .awaitingKey
  reg : ∀ r, u.reg r = s.reg r
  same : ∀ p, p ∉ keyWaitParts → Part.same s u p

/-- The first tick of FX0A begins the wait (R163). -/
theorem State.keyWaitFrom_completed (s : State) (x : Reg) : s.KeyWaitFrom x (s.completed (.ldVxK x)) := by
  have hsub : [Part.keyWait, .mode] ⊆ keyWaitParts := by decide
  obtain ⟨hreg, hpart, _⟩ := s.changesOnly_completed_ldVxK x
  exact ⟨rfl, rfl, rfl, rfl, fun r => hreg r List.not_mem_nil, fun p hp => hpart p (mt (hsub ·) hp)⟩

/-- The host's part of a step writes nothing outside `keyWaitParts` (R81, R93). -/
theorem State.KeyWaitFrom.same_beginTick (h : s.KeyWaitFrom x u) (hp : p ∉ keyWaitParts) :
    Part.same s u.beginTick p := by
  have hsub : [Part.dt, Part.st] ⊆ keyWaitParts := by decide
  exact Part.same_trans (h.same p hp) (Part.same_beginTick (mt (hsub ·) hp))

/-- A sample with no new key continues the wait (R88). -/
theorem State.KeyWaitFrom.keepWaiting (h : s.KeyWaitFrom x u) : s.KeyWaitFrom x u.beginTick.keepWaiting where
  mode := h.mode
  wx := h.wx
  pc := h.pc
  result := rfl
  reg := h.reg
  same p hp := by
    have hsub : [Part.keyWait] ⊆ keyWaitParts := by decide
    exact Part.same_trans (h.same_beginTick hp) (Part.same_keepWaiting (mt (hsub ·) hp))

/-- The end of the wait leaves every piece that the wait does not write (R88). -/
theorem State.KeyWaitFrom.same_leaveWait (h : s.KeyWaitFrom x u) (hp : p ∉ keyWaitParts) :
    Part.same s ((u.beginTick.leaveWait k).retire .advance) p := by
  have hsub : [Part.mode] ⊆ keyWaitParts := by decide
  obtain ⟨_, hpart, _⟩ := u.beginTick.changesOnly_leaveWait k
  exact Part.same_trans (h.same_beginTick hp) (hpart p (mt (hsub ·) hp))

/-- The end of the wait leaves every register but the one that waits (R88). -/
theorem State.KeyWaitFrom.reg_leaveWait_of_ne (h : s.KeyWaitFrom x u) {r : Reg} (hr : r ≠ x) :
    ((u.beginTick.leaveWait k).retire .advance).reg r = s.reg r := by
  obtain ⟨hreg, _⟩ := u.beginTick.changesOnly_leaveWait k
  exact (hreg r (mt List.mem_singleton.mp (h.wx ▸ hr))).trans (h.reg r)

/-- The register that waits holds the key's number at the end of the wait (R88). -/
theorem State.KeyWaitFrom.toNat_reg_leaveWait (h : s.KeyWaitFrom x u) :
    (((u.beginTick.leaveWait k).retire .advance).reg x).toNat = k.val :=
  h.wx ▸ u.beginTick.toNat_reg_wx_leaveWait k

/-! ## One tick of a wait on a queued sample (R88) -/

/-- A step on a sample with no new key samples the keys and waits on. -/
theorem step_waitKey_of_no_new_key (hm : s.mode = .waitKey) (hin : s.inputs = input :: rest)
    (hold : ∀ k : Key, input.keys.getLsbD k.val = true → s.kprev.getLsbD k.val = true) :
    step s = .next s.beginTick.keepWaiting := by
  have hnone : leastKey s.beginTick.newKeys = none := by
    rw [State.leastKey_newKeys_none_iff, State.beginTick_keys, State.nextInput_cons hin]
    exact hold
  rw [step_waitKey hm, State.waitTick, hnone]

/-- A step on a sample whose least new key is `k` ends the wait with `k`. -/
theorem step_waitKey_of_least_new_key (hm : s.mode = .waitKey) (hin : s.inputs = input :: rest)
    (hdown : input.keys.getLsbD k.val = true) (hup : s.kprev.getLsbD k.val = false)
    (hleast : ∀ j : Key, j < k → input.keys.getLsbD j.val = true → s.kprev.getLsbD j.val = true) :
    step s = .next ((s.beginTick.leaveWait k).retire .advance) := by
  have hkeys : s.beginTick.keys = input.keys := congrArg TickInput.keys (State.nextInput_cons hin)
  have hsome : leastKey s.beginTick.newKeys = some k := by
    refine leastKey_eq_some ((State.newKeys_getLsbD_eq_true k).mpr ⟨hkeys ▸ hdown, hup⟩) fun j hj => ?_
    rw [Bool.eq_false_iff, ne_eq, State.newKeys_getLsbD_eq_true, hkeys]
    exact fun ⟨hjdown, hjup⟩ => Bool.false_ne_true (hjup.symm.trans (hleast j hj hjdown))
  rw [step_waitKey hm, State.waitTick, hsome]

end

/-- A wait goes on over any number of queued samples with no new key, and KPREV is the last of them (R88). -/
theorem State.KeyWaitFrom.steps {s u : State} {x : Reg} {waits rest : List TickInput} (h : s.KeyWaitFrom x u)
    (hin : u.inputs = waits ++ rest) (hold : noNewKeys u.kprev (waits.map TickInput.keys)) :
    ∃ w, u.steps waits.length = .next w ∧ s.KeyWaitFrom x w ∧ w.inputs = rest ∧
      w.kprev = (waits.map TickInput.keys).getLastD u.kprev := by
  induction waits generalizing u with
  | nil => exact ⟨u, rfl, h, hin, rfl⟩
  | cons input waits ih =>
    rw [List.map_cons, noNewKeys_cons] at hold
    obtain ⟨hfirst, hlater⟩ := hold
    have hstep : step u = .next u.beginTick.keepWaiting := step_waitKey_of_no_new_key h.mode hin hfirst
    have hkprev : u.beginTick.keepWaiting.kprev = input.keys := congrArg TickInput.keys (State.nextInput_cons hin)
    have hinputs : u.beginTick.keepWaiting.inputs = waits ++ rest := congrArg List.tail hin
    obtain ⟨w, hsteps, hwait, hrest, hlast⟩ := ih h.keepWaiting hinputs (hkprev ▸ hlater)
    refine ⟨w, (State.steps_succ _ hstep).trans hsteps, hwait, hrest, ?_⟩
    rw [List.map_cons, List.getLastD_cons, hlast, hkprev]

/-- Settles O50: the first tick begins the wait, each sample with no new key continues it, and the least new key ends
it. -/
theorem keyWaitEndsOnANewlyPressedKey : Obligations.KeyWaitEndsOnANewlyPressedKey := by
  intro x s t waits rest hexec hin hold
  cases (exec_of_errorOf_none rfl).symm.trans hexec
  obtain ⟨u, hsteps, h, hrest, hlast⟩ := (s.keyWaitFrom_completed x).steps hin hold
  refine ⟨u, hsteps, h.mode, h.wx, h.pc, hrest, hlast, h.result, h.reg, h.same, ?_⟩
  intro input rest' k hnext hdown hup hleast
  have hin' : u.inputs = input :: rest' := hrest.trans hnext
  exact ⟨_, step_waitKey_of_least_new_key h.mode hin' hdown hup hleast, h.toNat_reg_leaveWait, congrArg (· + 2) h.pc,
    rfl, rfl, congrArg List.tail hin', fun _ => h.reg_leaveWait_of_ne, fun _ => h.same_leaveWait⟩

/-- Settles O49: the first tick of FX0A completes with the wait entered and PC held. -/
theorem keyWaitBeginsByHoldingPc : Obligations.KeyWaitBeginsByHoldingPc := fun x s =>
  ⟨_, exec_of_errorOf_none rfl, rfl, rfl, rfl, rfl, rfl, s.changesOnly_completed_ldVxK x⟩

/-! ## The key skips (R161, R162, R167) -/

/-- A key number of at most 0x0F raises no error (R167). -/
theorem State.keyError_none {s : State} {x : Reg} (h : (s.reg x).toNat ≤ 0x0F) : s.keyError x = none :=
  if_neg (Nat.not_lt_of_le h)

/-- A key number above 0x0F raises OutOfBoundsAccess with that number (R167, R181). -/
theorem State.keyError_some {s : State} {x : Reg} (h : 0x0F < (s.reg x).toNat) :
    s.keyError x = some ⟨.outOfBoundsAccess, (s.reg x).toNat⟩ :=
  if_pos h

/-- Settles O48: each key skip follows the PC rule on its key, or raises its key error. -/
theorem keySkipsTestTheSelectedKey : Obligations.KeySkipsTestTheSelectedKey := by
  refine fun x s => ⟨fun hkey => ⟨?_, ?_⟩, fun hkey => ⟨?_, ?_⟩⟩
  · exact exec_of_pcAction_eq_skipIf (i := .skp x) (State.keyError_none hkey)
      (congrArg skipIf (Bool.decide_eq_true).symm) rfl rfl
  · refine exec_of_pcAction_eq_skipIf_not (i := .sknp x) (State.keyError_none hkey) ?_ rfl rfl
    rw [decide_not, Bool.decide_eq_true]
    rfl
  · exact exec_of_errorOf_some (i := .skp x) (State.keyError_some hkey)
  · exact exec_of_errorOf_some (i := .sknp x) (State.keyError_some hkey)

/-! ## The timers (R164 to R166) -/

/-- Settles O51: one register write for the read of DT, and one timer for each of the others. -/
theorem timerAccessesMoveOneByte : Obligations.TimerAccessesMoveOneByte := fun x s =>
  ⟨⟨_, exec_of_errorOf_none rfl, State.completed_reg_of_regWrites rfl, rfl, rfl,
      s.changesOnly_completed (.ldVxDt x)⟩,
    ⟨_, exec_of_errorOf_none rfl, rfl, rfl, rfl, s.changesOnly_completed (.ldDtVx x)⟩,
    ⟨_, exec_of_errorOf_none rfl, rfl, rfl, rfl, s.changesOnly_completed (.ldStVx x)⟩⟩

end Sys2Proof.Machine

/-! The memory operations (`47_memory_ops.md` R170 to R175). -/

namespace Sys2Proof.Machine

/-! ## The font address (R170) -/

/-- With a legal FONT_BASE the address of a glyph needs no wrap (R170). -/
theorem State.toNat_fontAddress {s : State} (h : s.params.fontBase.toNat ≤ 0xFFFF - 1275) (b : Byte) :
    (s.fontAddress b).toNat = s.params.fontBase.toNat + 5 * b.toNat := by
  have hb := b.isLt
  exact Nat.mod_eq_of_lt (show s.params.fontBase.toNat + 5 * b.toNat < 2 ^ 16 by omega)

/-- Settles O52: the glyph's address is the sum itself, and only I is written. -/
theorem fontAddressIsFiveBytesPerDigit : Obligations.FontAddressIsFiveBytesPerDigit := fun x s hbase =>
  ⟨_, exec_of_errorOf_none rfl, State.toNat_fontAddress hbase (s.reg x), rfl, rfl, s.changesOnly_completed (.ldF x)⟩

/-! ## Accesses through I (R55, R173 to R175) -/

section

variable {s : State} {x : Reg}

/-- An access whose last byte, at I + last, is above 0xFFF raises OutOfBoundsAccess (R55, R181). -/
theorem State.accessError_some {last : Nat} (h : 0xFFF < s.i.toNat + last) :
    s.accessError (last + 1) = some ⟨.outOfBoundsAccess, max s.i.toNat 0x1000⟩ :=
  if_pos ⟨Nat.succ_pos last, h⟩

/-- I after FX55 and FX65, as an integer (R173, R174). -/
theorem State.toNat_stepI_i :
    (s.stepI x).i.toNat =
      if s.params.loadStoreIInc = true then (s.i.toNat + x.val + 1) % 2 ^ 16 else s.i.toNat := by
  rw [State.stepI_i, apply_ite BitVec.toNat, BitVec.toNat_add, BitVec.toNat_ofNat, Nat.add_mod_mod, Nat.add_assoc]

/-- A register after FX65 (R174). -/
theorem State.reg_completed_loadRegs (r : Reg) :
    (s.completed (.loadRegs x)).reg r = if r ≤ x then s.mem.read (s.baseAddr + r.val) else s.reg r := by
  rw [← State.completed_loadRegs, State.retire_reg, State.stepI_reg, State.reg_loadRange]

theorem State.reg_completed_loadRegs_of_le {r : Reg} (hr : r ≤ x) :
    (s.completed (.loadRegs x)).reg r = s.mem.read (s.baseAddr + r.val) :=
  (State.reg_completed_loadRegs r).trans (if_pos hr)

theorem State.reg_completed_loadRegs_of_lt {r : Reg} (hr : x < r) : (s.completed (.loadRegs x)).reg r = s.reg r :=
  (State.reg_completed_loadRegs r).trans (if_neg (not_le_of_gt hr))

end

/-! ## The instructions (R172 to R174) -/

/-- Settles O53: each digit is read back at its own address; a byte's hundreds are below ten. -/
theorem bcdStoresThreeDigits : Obligations.BcdStoresThreeDigits := by
  refine fun x s hwf => ⟨fun hrange => ?_, fun hrange => exec_of_errorOf_some (State.accessError_some hrange)⟩
  have herr : s.errorOf (.ldB x) = none := State.accessError_none (Nat.succ_le_succ hrange)
  have hdigit (j : Fin 3) := State.read_nextMem_ldB (x := x) (j := j) hwf hrange rfl
  have hhundreds : (s.reg x).toNat / 100 < 10 := Nat.div_lt_of_lt_mul (Nat.lt_of_lt_of_le (s.reg x).isLt (by decide))
  exact ⟨_, exec_of_errorOf_none herr, (hdigit 0).trans (Nat.mod_eq_of_lt hhundreds), hdigit 1,
    (hdigit 2).trans (congrArg (· % 10) (Nat.div_one _)), fun _ => State.read_nextMem_ldB_outside, rfl, rfl,
    s.changesOnly_completed (.ldB x)⟩

/-- Settles O54: each register is read back at its own address, and I is stepped. -/
theorem storeRegistersWritesTheRange : Obligations.StoreRegistersWritesTheRange := by
  refine fun x s hwf => ⟨fun hrange => ?_, fun hrange => exec_of_errorOf_some (State.accessError_some hrange)⟩
  have herr : s.errorOf (.storeRegs x) = none := State.accessError_none (Nat.succ_le_succ hrange)
  exact ⟨_, exec_of_errorOf_none herr, fun _ hr => State.read_nextMem_storeRegs hwf hrange hr rfl,
    fun _ => State.read_nextMem_storeRegs_outside, State.toNat_stepI_i, rfl, rfl,
    (s.changesOnly_completed (.storeRegs x)).mono (List.Subset.refl _) (List.Perm.swap ..).subset⟩

/-- Settles O55: the range load gives each register its byte, and I is stepped. -/
theorem loadRegistersReadsTheRange : Obligations.LoadRegistersReadsTheRange := by
  refine fun x s => ⟨fun hrange => ?_, fun hrange => exec_of_errorOf_some (State.accessError_some hrange)⟩
  have herr : s.errorOf (.loadRegs x) = none := State.accessError_none (Nat.succ_le_succ hrange)
  exact ⟨_, exec_of_errorOf_none herr, fun _ => State.reg_completed_loadRegs_of_le,
    fun _ => State.reg_completed_loadRegs_of_lt, State.toNat_stepI_i, rfl, rfl, s.changesOnly_completed (.loadRegs x)⟩

/-- Settles O56: with I put back, FX65 reads each register's byte where FX55 stored it. -/
theorem storeThenLoadRestoresTheRegisters : Obligations.StoreThenLoadRestoresTheRegisters := by
  intro x s v hwf hrange
  have herr : s.accessError (x.val + 1) = none := State.accessError_none (Nat.succ_le_succ hrange)
  refine ⟨s.completed (.storeRegs x), _, exec_of_errorOf_none herr, exec_of_errorOf_none herr, fun r hr => ?_,
    fun _ => State.reg_completed_loadRegs_of_lt, rfl⟩
  rw [State.reg_completed_loadRegs_of_le hr]
  exact State.read_nextMem_storeRegs hwf hrange hr rfl

end Sys2Proof.Machine

/-! The host's operations: the timers run down (`60_exceptions.md` R192), FAULT and the way out of it (R187), and the
loader (`70_reset_and_hazards.md` R210 to R213). -/

namespace Sys2Proof.Machine

section

variable {s t : State} {a : Nat} {b : Byte}

/-! ## `decrement_timers` (R192) -/

/-- `decrement_timers` writes the two timers and nothing else. -/
theorem State.changesOnly_decrementTimers (s : State) : ChangesOnly [] [.dt, .st] s s.decrementTimers := by
  refine ⟨fun _ _ => rfl, fun p hp => ?_, rfl, rfl, rfl, rfl, rfl⟩
  cases p with
  | dt => exact absurd (.head _) hp
  | st => exact absurd (.tail _ (.head _)) hp
  | stack | keyWait => exact ⟨rfl, rfl⟩
  | mem => exact fun _ => rfl
  | fb => exact fun _ _ => rfl
  | i | mode | faultInfo => rfl

/-- The operation iterated runs each timer down by itself. -/
theorem State.iterate_decrementTimers (s : State) (n : Nat) :
    State.decrementTimers^[n] s = s.decrementTimersTimes n := by
  induction n generalizing s with
  | zero => rfl
  | succ n ih => rw [Function.iterate_succ_apply, ih, State.decrementTimersTimes_succ]

/-- One timer decremented, in R192's own words. -/
theorem toNat_decrementTimer_eq_ite (t : Byte) :
    (decrementTimer t).toNat = if t.toNat ≠ 0 then t.toNat - 1 else t.toNat := by
  rw [decrementTimer_toNat]
  split <;> omega

/-! ## `load_write` (R212) -/

theorem State.loadWrite_ok (hr : s.result = none) (ha : a < Config.memSize) :
    s.loadWrite a b = .ok (s.setMem (s.mem.write a b)) := by
  rw [State.loadWrite, hr, Option.isSome_none, if_neg Bool.false_ne_true, if_pos ha]

theorem State.loadWrite_outOfBounds (hr : s.result = none) (ha : Config.memSize ≤ a) :
    s.loadWrite a b = .error (.outOfBoundsAccess a) := by
  rw [State.loadWrite, hr, Option.isSome_none, if_neg Bool.false_ne_true, if_neg (Nat.not_lt.mpr ha)]

theorem State.loadWrite_afterFirstTick (hr : s.result ≠ none) : s.loadWrite a b = .error .afterFirstTick :=
  if_pos (Option.isSome_iff_ne_none.mpr hr)

/-- A `load_write` that succeeds has written its one byte to memory. -/
theorem State.eq_setMem_of_loadWrite_ok (h : s.loadWrite a b = .ok t) : t = s.setMem (s.mem.write a b) := by
  by_cases hr : s.result = none
  · rcases Nat.lt_or_ge a Config.memSize with ha | ha
    · cases (State.loadWrite_ok hr ha).symm.trans h
      rfl
    · cases (State.loadWrite_outOfBounds hr ha).symm.trans h
  · cases (State.loadWrite_afterFirstTick hr).symm.trans h

/-- Another memory is all that `setMem` changes. -/
theorem State.changesOnly_setMem (s : State) (m : Memory) : ChangesOnly [] [.mem] s (s.setMem m) := by
  refine ⟨fun _ _ => rfl, fun p hp => ?_, rfl, rfl, rfl, rfl, rfl⟩
  cases p with
  | mem => exact absurd (.head _) hp
  | stack | keyWait => exact ⟨rfl, rfl⟩
  | fb => exact fun _ _ => rfl
  | i | dt | st | mode | faultInfo => rfl

/-! ## A load of several bytes (R212, R213) -/

/-- Before the first tick, a load that stays inside memory is one store of all its bytes. -/
theorem State.loadBytes_ok {bytes : List Byte} (hr : s.result = none) (h : a + bytes.length ≤ Config.memSize) :
    s.loadBytes a bytes = .ok (s.setMem (s.mem.storeBytes a bytes)) := by
  induction bytes generalizing s a with
  | nil => rfl
  | cons b bytes ih =>
    rw [List.length_cons] at h
    rw [State.loadBytes, State.loadWrite_ok hr (by omega)]
    exact ih hr (by omega)

/-- Before the first tick, a program that fits is stored at ORIGIN. -/
theorem State.loadProgram_ok {program : List Byte} (hr : s.result = none)
    (h : s.params.origin.toNat + program.length ≤ Config.memSize) :
    s.loadProgram program = .ok (s.setMem (s.mem.storeBytes s.params.origin.toNat program)) :=
  (if_pos h).trans (State.loadBytes_ok hr h)

theorem State.loadProgram_tooLarge {program : List Byte}
    (h : Config.memSize < s.params.origin.toNat + program.length) :
    s.loadProgram program = .error .invalidProgramLoad :=
  if_neg (Nat.not_le.mpr h)

end

/-! ## The host's operations -/

/-- Settles O5: n operations are n decrements of each timer. -/
theorem decrementTimersStopsAtZero : Obligations.DecrementTimersStopsAtZero := by
  refine fun s => ⟨toNat_decrementTimer_eq_ite s.dt, toNat_decrementTimer_eq_ite s.st, rfl, rfl,
    s.changesOnly_decrementTimers, fun n => ?_⟩
  rw [State.iterate_decrementTimers]
  exact ⟨iterate_decrementTimer_toNat n s.dt, iterate_decrementTimer_toNat n s.st⟩

/-- Settles O2: a step in FAULT only reports the latched error, and the host's other operations write no MODE, but for
`reset`. -/
theorem faultIsLeftOnlyByReset : Obligations.FaultIsLeftOnlyByReset := by
  refine fun s hm => ⟨fun t ht => ?_, hm, fun a b t ht => ?_, fun p => ⟨rfl, rfl, rfl⟩⟩
  · obtain ⟨e, -, rfl⟩ := step_fault_cases hm ht
    exact ⟨hm, rfl⟩
  · rw [State.eq_setMem_of_loadWrite_ok ht]
    exact hm

/-- Settles O4: the load is one store at ORIGIN into the memory of reset, which is empty. -/
theorem loadProgramPutsBytesAtOrigin : Obligations.LoadProgramPutsBytesAtOrigin :=
  fun p _ => ⟨fun hfits => ⟨_, State.loadProgram_ok rfl hfits,
      fun _ hj => Memory.read_storeBytes_inside rfl hfits hj, fun _ => Memory.read_storeBytes_outside,
      Memory.wf_storeBytes rfl hfits, rfl, rfl, (State.resetWith p).changesOnly_setMem _⟩,
    State.loadProgram_tooLarge (s := State.resetWith p)⟩

/-- Settles O3: the three answers of `load_write`, and what a memory write does. -/
theorem loadWriteStoresOneByte : Obligations.LoadWriteStoresOneByte := by
  refine fun s a b hwf => ⟨fun hr ha => ?_, State.loadWrite_outOfBounds, State.loadWrite_afterFirstTick⟩
  have hlt : a < Config.memSize := Nat.lt_succ_of_le ha
  exact ⟨_, State.loadWrite_ok hr hlt, Memory.read_write_same hwf, fun _ => Memory.read_write_ne,
    Memory.wf_write hwf hlt, rfl, hr, s.changesOnly_setMem _⟩

end Sys2Proof.Machine
